-- ==== Sys2Proof/Word.lean ====
section
/-! DEFINITION. The word types of the block: bytes, the 16-bit request word, the 24-bit frame, the
10-bit result, and the two kinds of encoded word that `spec/opcode_table.json` lists. -/

namespace Sys2Proof

/-- One byte (`30_encoding.md` R50, R54). -/
abbrev Byte := BitVec 8

/-- A host request word, format `HREQ` (`30_encoding.md` R50, R51). -/
abbrev ReqWord := BitVec 16

/-- A 3-byte frame as one 24-bit word, byte 0 in bits 23:16, formats `CMDF` and `RSPF`
(`00_scope.md` section 6, `10_state.md` R11, R12). -/
abbrev Frame := BitVec 24

/-- The 10-bit raw code (`20_memory.md` R30, `41_read.md` R84). -/
abbrev Raw := BitVec 10

/-- A ChannelAddress, 0 to 7 (`20_memory.md` R30). -/
abbrev Channel := BitVec 3

/-- An encoded operation: a host request word (host to block) or a command frame (block to ADC).
These are the two formats of the rows of the opcode table (`30_encoding.md` R50, R64). -/
inductive Encoded where
  | request (w : ReqWord)
  | frame (f : Frame)
deriving DecidableEq, Repr

end Sys2Proof
end

