-- ==== Sys2Proof/Config.lean ====
section
/-! DEFINITION. What is fixed when the block is built (`00_scope.md` R8): the number type of
voltages with its arithmetic, the pad byte, the default reference voltage, and the transport's own parameters, which the
spec leaves open. -/

namespace Sys2Proof.Config

/-- The values of `VoltT`, the number type of voltages, which is a parameter (`00_scope.md` R8,
`92_eei_decisions.md` D17). This is the carrier of every such type: a value that is a rational number,
as all finite values of a fixed-point or floating-point format are, or a value that is none (an
infinity, a not-a-number, a negative zero), under the code its format gives it. Which of them the
build's type has, and its arithmetic, is `numerics` (DESIGN CHOICE, log 2; safe). -/
inductive VoltT where
  | number (q : Rat)
  | special (code : Nat)
deriving DecidableEq, Repr, Inhabited

/-- The 0 of every number type (`41_read.md` R83). -/
abbrev VoltT.zero : VoltT := .number 0

/-- The arithmetic of a number type, as far as the expression of `41_read.md` R88 needs it. -/
structure Numerics where
  /-- The type's value for a rational number, its conversion of a literal or of a natural. -/
  literal : Rat → VoltT
  /-- The type's product. -/
  multiply : VoltT → VoltT → VoltT
  /-- The type's quotient. -/
  divide : VoltT → VoltT → VoltT
deriving Inhabited

/-- The number type the block is built with: the parameter `VoltT` with its arithmetic
(`00_scope.md` R8, `93_implementation_defined.md` U4). Nothing is known of it, so a claim that names it
holds for the exact rationals and for every floating-point format (log 2). -/
opaque numerics : Numerics

/-- `PAD2`, the value sent as command byte 2 (`00_scope.md` R8, `30_encoding.md` R54, D4; log 12). -/
def pad2 : Byte := 0x00

/-- 3.3 in the reference instance, the exact rationals: the default of the parameter table
(`00_scope.md` R8). Written as the normal form 33/10 so that it is a literal value. -/
def referenceVref : VoltT := .number ⟨33, 10, by decide, by decide⟩

/-- The reference voltage the host supplies when the caller gave none: 3.3 as the build's number type
has it (`00_scope.md` R8, `30_encoding.md` R62, R63). -/
def defaultVref : VoltT := numerics.literal (33 / 10)

/-- `SCLK_HZ`, the clock rate of the transport: OPEN, configured by the external caller
(`00_scope.md` R8, `20_memory.md` R38, D19). No rule reads it. -/
opaque sclkHz : Nat

/-- The recommended default of `SCLK_HZ`, 1 MHz (`00_scope.md` R8, `70_reset_and_hazards.md` R146). -/
def defaultSclkHz : Nat := 1000000

/-- `SPI_CPOL`, the clock polarity of the transport: OPEN (`00_scope.md` R8, D18). No rule reads it. -/
opaque spiCpol : Bool

/-- `SPI_CPHA`, the clock phase of the transport: OPEN (`00_scope.md` R8, D18). No rule reads it. -/
opaque spiCpha : Bool

end Sys2Proof.Config
end

