-- ==== Sys2Proof/Syntax.lean ====
section
/-! DEFINITION. The operations of the block: one constructor of `Instr` per row of
`spec/opcode_table.json`, four host operations and sixteen command frames. -/

namespace Sys2Proof

/-- SamplingMode (`20_memory.md` R31, R32): one pin against ground, or one pin pair. -/
inductive Mode where
  | singleEnded
  | differential
deriving DecidableEq, Repr

/-- The operations (`00_scope.md` R3, `30_encoding.md` R64). -/
inductive Instr where
  /-- `CONFIG model` (`40_config.md` R70); the reference voltage travels beside the word on `req_vref`. -/
  | config (model : Byte)
  /-- `READRAW channel, mode` (`41_read.md` R85). -/
  | readraw (channel : Byte) (mode : Mode)
  /-- `READ channel, mode` (`41_read.md` R86). -/
  | read (channel : Byte) (mode : Mode)
  /-- `READV channel` (`41_read.md` R87). -/
  | readv (channel : Byte)
  /-- `SGL_CH0` to `SGL_CH7` (`42_wire_commands.md` R94 to R101). `pad` is the frame's byte 2, the
  table's field `p`, which a reader of the wire masks out (`30_encoding.md` R54, R59). -/
  | sglCh0 (pad : Byte)
  | sglCh1 (pad : Byte)
  | sglCh2 (pad : Byte)
  | sglCh3 (pad : Byte)
  | sglCh4 (pad : Byte)
  | sglCh5 (pad : Byte)
  | sglCh6 (pad : Byte)
  | sglCh7 (pad : Byte)
  /-- `DIFF_CH0` to `DIFF_CH7` (`42_wire_commands.md` R102 to R109). -/
  | diffCh0 (pad : Byte)
  | diffCh1 (pad : Byte)
  | diffCh2 (pad : Byte)
  | diffCh3 (pad : Byte)
  | diffCh4 (pad : Byte)
  | diffCh5 (pad : Byte)
  | diffCh6 (pad : Byte)
  | diffCh7 (pad : Byte)
deriving DecidableEq, Repr

end Sys2Proof
end

