-- ==== Sys2Proof/Machine/State.lean ====
section
/-! DEFINITION. The state of the block as plain data: the nine registers of `10_state.md` R10, the
ghost trace of R24, and what the environment (host and transport) holds at the input ports; its
value after reset; and the reasons a step can stop. -/

namespace Sys2Proof.Machine

open Sys2Proof.Config (VoltT)

/-- The sequencing register `PHASE` (`10_state.md` R16). -/
inductive Phase where
  | idle
  | select
  | start
  | wait
  | release
  | respond
deriving DecidableEq, Repr

/-- The decoded request, the abstract form of a request word (`30_encoding.md` R51). -/
inductive Request where
  | config (model : Byte) (vref : VoltT)
  | readRaw (channel : Byte) (mode : Mode)
  | read (channel : Byte) (mode : Mode)
  | readV (channel : Byte)
deriving DecidableEq, Repr

/-- A request as the host presents it on the port: `req_word` with `req_vref` beside it
(`10_state.md` R20). -/
structure PortRequest where
  word : ReqWord
  vref : VoltT
deriving DecidableEq, Repr

/-- The transport's answer to one exchange: the three bytes received, or the error bit
(`10_state.md` R22). -/
inductive Answer where
  | ok (received : Frame)
  | err
deriving DecidableEq, Repr

/-- The response port's fields: `rsp_status`, `rsp_frame`, `rsp_raw`, `rsp_volt`
(`10_state.md` R21, `30_encoding.md` R53). -/
structure Response where
  status : BitVec 3
  frame : Frame
  raw : Raw
  volt : VoltT
deriving DecidableEq, Repr

/-- The events of the ghost trace (`10_state.md` R24). -/
inductive Event where
  | accept (req : Request)
  | csLow
  | xferStart (out : Frame)
  | xferOk (received : Frame)
  | xferErr
  | csHigh
  | respond (rsp : Response)
deriving DecidableEq, Repr

/-- The state (`10_state.md` R10). The last three fields are the model's own and stand for the
environment: what the host and the transport have put to the input ports and the block has not yet
taken, and the exchanges a reset cut short (DESIGN CHOICE, log 4 and log 8; safe, but for the transport's
contract, log 9). -/
structure State where
  /-- `CONFIGURED`, 1 bit (R13). -/
  configured : Bool
  /-- `MODEL`, the channel count itself (R14). -/
  model : BitVec 4
  /-- `VREF` (R15). -/
  vref : VoltT
  /-- `PHASE` (R16). -/
  phase : Phase
  /-- `OP`, the `op` field of the request in progress (R17). -/
  op : BitVec 2
  /-- `STATUS`, the outcome code of the operation in progress (R18). -/
  status : BitVec 3
  /-- `CMD`, the command frame (R11). -/
  cmd : Frame
  /-- `RSP`, the response frame (R12). -/
  rsp : Frame
  /-- `CS_N`, the level of the chip-select line: `true` is high, inactive (R19). -/
  csN : Bool
  /-- `TRACE`, oldest event first (R24). -/
  trace : List Event
  /-- The requests the host presents, in order; the first is on the request port (R20). -/
  requests : List PortRequest
  /-- The transport's answers to the coming exchanges, in order; none left means that the transport
  does not answer (R22, `93_implementation_defined.md` U2, U3, U8). -/
  answers : List Answer
  /-- How many exchanges a reset has cut short that the transport has yet to answer; their answers
  are ignored when they come (`70_reset_and_hazards.md` R132). Written and read by the environment's
  actions only, never by a step. -/
  abandoned : Nat
deriving DecidableEq, Repr

/-- The state after reset (`10_state.md` R27, `70_reset_and_hazards.md` R130). `VREF` is unspecified
there and is 0 here (DESIGN CHOICE, log 3; unsafe); the environment has presented nothing (log 4). -/
def State.reset : State where
  configured := false
  model := 0
  vref := .zero
  phase := .idle
  op := 0
  status := 0
  cmd := 0
  rsp := 0
  csN := true
  trace := []
  requests := []
  answers := []
  abandoned := 0

/-- Why a step gives no next state: no step of the block is enabled. Both are states in which the
block waits on its environment for ever; neither is an error of the block
(DESIGN CHOICE, log 5; safe). -/
inductive Fault where
  /-- Raised by `sequence` in `PHASE = IDLE` with no request on the port: nothing to accept
  (`10_state.md` R16, R20). Safe. -/
  | awaitingRequest
  /-- Raised by `waitStep` in `PHASE = WAIT` when the transport does not answer: the stuck state of
  `70_reset_and_hazards.md` R137. Safe. -/
  | awaitingTransport
deriving DecidableEq, Repr

/-- Why an operation has no meaning. -/
inductive Refusal where
  /-- An operation of the table that the model gives no meaning; raised by no arm of `exec`, since
  every operation has one. Safe. -/
  | notModelled (mnemonic : String)
deriving DecidableEq, Repr

end Sys2Proof.Machine
end

