-- ==== Sys2Proof/Machine/Flags.lean ====
section
/-! DEFINITION. The outcome codes that `STATUS` holds, and the checks that decide them, in the order
of `60_exceptions.md` R118. -/

namespace Sys2Proof.Machine

/-- The five errors (`60_exceptions.md` R111). -/
inductive Err where
  | invalidModel
  | channelOutOfRange
  | transportError
  | notConfigured
  | alreadyConfigured
deriving DecidableEq, Repr

/-- The status code of an error (`60_exceptions.md` R112); code 0 is `OK`, 6 and 7 are not used. -/
def errorCode : Err → BitVec 3
  | .invalidModel => 1
  | .channelOutOfRange => 2
  | .transportError => 3
  | .notConfigured => 4
  | .alreadyConfigured => 5

/-- The model-validity predicate, on all 8 bits of the operand (`40_config.md` R71). -/
def modelLegal (m : Byte) : Bool :=
  m == 2 || m == 4 || m == 8

/-- The checks of `CONFIG`, in order (`40_config.md` R70, `60_exceptions.md` R118). -/
def configError (configured : Bool) (m : Byte) : Option Err :=
  if configured then some .alreadyConfigured
  else if modelLegal m then none
  else some .invalidModel

/-- The checks of a read at acceptance, in order (`41_read.md` R75, R76, `60_exceptions.md` R118):
unsigned, on the whole 8-bit channel against `MODEL` extended with zeros. -/
def readError (configured : Bool) (model : BitVec 4) (channel : Byte) : Option Err :=
  if configured = false then some .notConfigured
  else if model.setWidth 8 ≤ channel then some .channelOutOfRange
  else none

end Sys2Proof.Machine
end

