-- ==== Sys2Proof/Decode.lean ====
section
/-! DEFINITION. The decoder of request words and command frames, total and rejecting by name, and
after it the encoder, written from the constants of the opcode table. -/

namespace Sys2Proof

/-- Why a 24-bit word is no command frame (`30_encoding.md` R54, R59). A request word is never
refused: all four values of `op` are used (R52). -/
inductive DecodeError where
  /-- Byte 0 is not `0x01`. -/
  | startByte
  /-- Bits 3:0 of byte 1 are not 0. -/
  | zeroNibble
deriving DecidableEq, Repr

/-! ## Fields -/

/-- The mode bit `s`: 1 is SingleEnded, 0 is Differential (`30_encoding.md` R51, R54). -/
def Mode.bit : Mode → BitVec 1
  | .singleEnded => 1
  | .differential => 0

/-- The sampling mode a mode bit selects (`30_encoding.md` R51, R54). -/
def modeOfBit (s : Bool) : Mode :=
  if s then .singleEnded else .differential

/-- `req_word[15:14]`, the field `op` (`30_encoding.md` R51). -/
def reqOp (w : ReqWord) : BitVec 2 := w.extractLsb' 14 2

/-- `req_word[8]`, the field `s` (`30_encoding.md` R51). -/
def reqMode (w : ReqWord) : Mode := modeOfBit (w.getLsbD 8)

/-- `req_word[7:0]`, the field `arg` (`30_encoding.md` R51). -/
def reqArg (w : ReqWord) : Byte := w.extractLsb' 0 8

/-- Byte 0 of a frame, bits 23:16, first on the wire (`10_state.md` R11, `20_memory.md` R34). -/
def frameByte0 (f : Frame) : Byte := f.extractLsb' 16 8

/-- Byte 1 of a frame, bits 15:8 (`10_state.md` R11). -/
def frameByte1 (f : Frame) : Byte := f.extractLsb' 8 8

/-- Byte 2 of a frame, bits 7:0 (`10_state.md` R11). -/
def frameByte2 (f : Frame) : Byte := f.extractLsb' 0 8

/-- The mode bit of a command frame, bit 15 (`30_encoding.md` R54). -/
def frameMode (f : Frame) : Mode := modeOfBit (f.getLsbD 15)

/-- The channel field of a command frame, bits 14:12 (`30_encoding.md` R54). -/
def frameChannel (f : Frame) : Channel := f.extractLsb' 12 3

/-! ## Decoding -/

/-- The operation of a request word; bits 13:9 are ignored, and so is `s` for `CONFIG` and `READV`
(`30_encoding.md` R52, R57). -/
def decodeRequest (w : ReqWord) : Instr :=
  match w.getLsbD 15, w.getLsbD 14 with
  | false, false => .config (reqArg w)
  | false, true => .readraw (reqArg w) (reqMode w)
  | true, false => .read (reqArg w) (reqMode w)
  | true, true => .readv (reqArg w)

/-- The command frame of a mode, a channel and a pad byte (`42_wire_commands.md` R94 to R109). -/
def frameInstr (m : Mode) (c : Channel) (pad : Byte) : Instr :=
  match m, c.getLsbD 2, c.getLsbD 1, c.getLsbD 0 with
  | .singleEnded, false, false, false => .sglCh0 pad
  | .singleEnded, false, false, true => .sglCh1 pad
  | .singleEnded, false, true, false => .sglCh2 pad
  | .singleEnded, false, true, true => .sglCh3 pad
  | .singleEnded, true, false, false => .sglCh4 pad
  | .singleEnded, true, false, true => .sglCh5 pad
  | .singleEnded, true, true, false => .sglCh6 pad
  | .singleEnded, true, true, true => .sglCh7 pad
  | .differential, false, false, false => .diffCh0 pad
  | .differential, false, false, true => .diffCh1 pad
  | .differential, false, true, false => .diffCh2 pad
  | .differential, false, true, true => .diffCh3 pad
  | .differential, true, false, false => .diffCh4 pad
  | .differential, true, false, true => .diffCh5 pad
  | .differential, true, true, false => .diffCh6 pad
  | .differential, true, true, true => .diffCh7 pad

/-- The command frame a 24-bit word is, read from the fields of `30_encoding.md` R54. -/
def decodeFrame (f : Frame) : Except DecodeError Instr :=
  if frameByte0 f ≠ 0x01 then .error .startByte
  else if f.extractLsb' 8 4 ≠ 0 then .error .zeroNibble
  else .ok (frameInstr (frameMode f) (frameChannel f) (frameByte2 f))

/-- The decoder of both formats (`30_encoding.md` R64). -/
def decode : Encoded → Except DecodeError Instr
  | .request w => .ok (decodeRequest w)
  | .frame f => decodeFrame f

/-! ## Encoding -/

/-- A request word from its fields, the reserved bits 13:9 written 0 (`30_encoding.md` R51). -/
def requestWord (op : BitVec 2) (s : BitVec 1) (arg : Byte) : ReqWord :=
  op ++ 0#5 ++ s ++ arg

/-- A command frame from its table constant and its pad byte (`30_encoding.md` R64). -/
def withPad (constant : Frame) (pad : Byte) : Frame :=
  constant ||| pad.setWidth 24

/-- The encoder: request words by `30_encoding.md` R51, R52 (`s` written 0 where it is ignored, R62),
command frames by the constants of R64 with the pad byte in bits 7:0. -/
def encode : Instr → Encoded
  | .config m => .request (requestWord 0b00 0 m)
  | .readraw c m => .request (requestWord 0b01 m.bit c)
  | .read c m => .request (requestWord 0b10 m.bit c)
  | .readv c => .request (requestWord 0b11 0 c)
  | .sglCh0 p => .frame (withPad 0x018000 p)
  | .sglCh1 p => .frame (withPad 0x019000 p)
  | .sglCh2 p => .frame (withPad 0x01A000 p)
  | .sglCh3 p => .frame (withPad 0x01B000 p)
  | .sglCh4 p => .frame (withPad 0x01C000 p)
  | .sglCh5 p => .frame (withPad 0x01D000 p)
  | .sglCh6 p => .frame (withPad 0x01E000 p)
  | .sglCh7 p => .frame (withPad 0x01F000 p)
  | .diffCh0 p => .frame (withPad 0x010000 p)
  | .diffCh1 p => .frame (withPad 0x011000 p)
  | .diffCh2 p => .frame (withPad 0x012000 p)
  | .diffCh3 p => .frame (withPad 0x013000 p)
  | .diffCh4 p => .frame (withPad 0x014000 p)
  | .diffCh5 p => .frame (withPad 0x015000 p)
  | .diffCh6 p => .frame (withPad 0x016000 p)
  | .diffCh7 p => .frame (withPad 0x017000 p)

/-- The decoder on a row of `spec/opcode_table.json`: 16 bits are a request word, 24 bits a command
frame, both numbered from bit 0 as the table numbers them; another width, or bits above the width,
is no operation. -/
def decodeTableWord (nbits w : Nat) : Option Instr :=
  if nbits = 16 ∧ w < 2 ^ 16 then some (decodeRequest (BitVec.ofNat 16 w))
  else if nbits = 24 ∧ w < 2 ^ 24 then (decodeFrame (BitVec.ofNat 24 w)).toOption
  else none

end Sys2Proof
end

