-- ==== Sys2Proof/Machine/Operands.lean ====
section
/-! DEFINITION. The values operations compute: the command frame, the decode of the response, the
voltage, the decoded request, and what a response carries. -/

namespace Sys2Proof.Machine

open Sys2Proof.Config (VoltT)

/-! ## The command frame -/

/-- Command byte 1, `(s << 7) | (c << 4)` (`30_encoding.md` R55). -/
def commandByte1 (m : Mode) (c : Channel) : Byte :=
  (m.bit.setWidth 8 <<< 7) ||| (c.setWidth 8 <<< 4)

/-- `cmd(s, c)`, the bytes `0x01`, byte 1 and `PAD2` (`30_encoding.md` R55, `41_read.md` R77). -/
def cmdFrame (m : Mode) (c : Channel) : Frame :=
  0x01#8 ++ commandByte1 m c ++ Config.pad2

/-! ## The result -/

/-- `dec10(f) = ((f[1] & 0x03) << 8) | f[2]` (`41_read.md` R84). -/
def dec10 (f : Frame) : Raw :=
  ((frameByte1 f &&& 0x03).setWidth 10 <<< 8) ||| (frameByte2 f).setWidth 10

/-- `raw * vref / 1024` in the number type `N`, evaluated in the order written: multiply, then divide
(`41_read.md` R88). -/
def vscaleIn (N : Config.Numerics) (raw : Raw) (vref : VoltT) : VoltT :=
  N.divide (N.multiply (N.literal raw.toNat) vref) (N.literal 1024)

/-- The parameter `vscale`: the scale in the number type the block is built with (`00_scope.md` R8,
`41_read.md` R88). -/
def vscale (raw : Raw) (vref : VoltT) : VoltT :=
  vscaleIn Config.numerics raw vref

/-! ## Requests -/

/-- The decoded request of a port word with its `req_vref` (`30_encoding.md` R51, R52; `READV`
carries no mode, `CONFIG` takes the voltage from the port). -/
def PortRequest.decoded (p : PortRequest) : Request :=
  match p.word.getLsbD 15, p.word.getLsbD 14 with
  | false, false => .config (reqArg p.word) p.vref
  | false, true => .readRaw (reqArg p.word) (reqMode p.word)
  | true, false => .read (reqArg p.word) (reqMode p.word)
  | true, true => .readV (reqArg p.word)

/-- The `op` field of a request (`30_encoding.md` R52). -/
def Request.op : Request → BitVec 2
  | .config _ _ => 0b00
  | .readRaw _ _ => 0b01
  | .read _ _ => 0b10
  | .readV _ => 0b11

/-- The channel and the mode a read addresses, none for `CONFIG`; `READV` forces SingleEnded
(`41_read.md` R75, R87). -/
def Request.target : Request → Option (Byte × Mode)
  | .config _ _ => none
  | .readRaw c m => some (c, m)
  | .read c m => some (c, m)
  | .readV c => some (c, .singleEnded)

/-! ## Responses -/

/-- The data fields of a successful operation `op` that received `f` (`30_encoding.md` R53,
`41_read.md` R83). -/
def okResponse (op : BitVec 2) (f : Frame) (vref : VoltT) : Response :=
  if op = 0b01 then ⟨0, f, dec10 f, .zero⟩
  else if op = 0b10 then ⟨0, 0, dec10 f, .zero⟩
  else if op = 0b11 then ⟨0, 0, 0, vscale (dec10 f) vref⟩
  else ⟨0, 0, 0, .zero⟩

/-- The response of an operation that ends in an error: the code and nothing else
(`30_encoding.md` R53, `60_exceptions.md` R112). -/
def errorResponse (code : BitVec 3) : Response :=
  ⟨code, 0, 0, .zero⟩

end Sys2Proof.Machine
end

