-- ==== Sys2Proof/Machine/Ops.lean ====
section
/-! DEFINITION. The shared operations: raising an error (the block's trap entry, `60_exceptions.md`
R117), accepting a request, handing a frame to the transport, and the sequencer's steps
(`41_read.md` R75 to R83). -/

namespace Sys2Proof.Machine

/-- `emit e`: append an event to `TRACE` (`00_scope.md` R9). -/
def emit (e : Event) (s : State) : State :=
  { s with trace := s.trace ++ [e] }

/-! ## Errors -/

/-- Where an error sends the sequencer (`60_exceptions.md` R117): an error of the transport goes
through `RELEASE`, so that chip-select is high before the host learns of it; one found at acceptance
goes straight to `RESPOND`. -/
def errorPhase : Err → Phase
  | .transportError => .release
  | .invalidModel | .channelOutOfRange | .notConfigured | .alreadyConfigured => .respond

/-- `raise E`: latch the code and take the path to the response (`00_scope.md` R9,
`60_exceptions.md` R117). Nothing is saved and no mode changes. The return is `respondStep`
(`60_exceptions.md` R120). -/
def raise (e : Err) (s : State) : State :=
  { s with status := errorCode e, phase := errorPhase e }

/-! ## Acceptance -/

/-- Acceptance of `CONFIG` (`40_config.md` R70). -/
def acceptConfig (m : Byte) (v : Config.VoltT) (s : State) : State :=
  let accepted := emit (.accept (.config m v)) { s with op := 0b00 }
  match configError s.configured m with
  | some e => raise e accepted
  | none =>
    { accepted with
      model := m.setWidth 4, vref := v, configured := true, status := 0, phase := .respond }

/-- Acceptance of a read of `channel` in `mode`, made by the request `r` (`41_read.md` R75, R77). -/
def acceptRead (r : Request) (channel : Byte) (mode : Mode) (s : State) : State :=
  let accepted := emit (.accept r) { s with op := r.op }
  match readError s.configured s.model channel with
  | some e => raise e accepted
  | none =>
    { accepted with cmd := cmdFrame mode (channel.setWidth 3), status := 0, phase := .select }

/-- Run `k` on the request presented and on the state it has been taken from. A request is taken only
when `req_valid` and `req_ready` are both 1, that is in `IDLE` with a request on the port; otherwise
nothing is accepted and nothing happens (`10_state.md` R20). -/
def whenAccepted (s : State) (k : PortRequest → State → State) : Host.Outcome State Fault Refusal :=
  match s.requests with
  | [] => .next s
  | p :: rest => if s.phase = .idle then .next (k p { s with requests := rest }) else .next s

/-! ## The sequencer -/

/-- Step SELECT: drive chip-select low (`41_read.md` R78). -/
def selectStep (s : State) : State :=
  { emit .csLow s with csN := false, phase := .start }

/-- Step START: hand the frame `f` to the transport (`41_read.md` R79). Only the START step hands over
a frame (`10_state.md` R22); in another phase nothing is sent and nothing happens
(DESIGN CHOICE, log 7; safe). -/
def sendFrame (f : Frame) (s : State) : Host.Outcome State Fault Refusal :=
  if s.phase = .start then .next { emit (.xferStart f) s with phase := .wait } else .next s

/-- Steps WAIT-OK and WAIT-ERR on the transport's answer (`41_read.md` R80, R81); with no answer no
step is enabled (`70_reset_and_hazards.md` R137). -/
def waitStep (s : State) : Host.Outcome State Fault Refusal :=
  match s.answers with
  | [] => .fault .awaitingTransport
  | .ok f :: rest => .next { emit (.xferOk f) s with rsp := f, phase := .release, answers := rest }
  | .err :: rest => .next (raise .transportError (emit .xferErr { s with answers := rest }))

/-- Step RELEASE: drive chip-select high; it does not read `STATUS` (`41_read.md` R82). -/
def releaseStep (s : State) : State :=
  { emit .csHigh s with csN := true, phase := .respond }

/-- What the RESPOND step delivers, computed from `OP`, `STATUS`, `RSP` and `VREF`
(`41_read.md` R83, `30_encoding.md` R53). -/
def response (s : State) : Response :=
  if s.status = 0 then okResponse s.op s.rsp s.vref else errorResponse s.status

/-- Step RESPOND: deliver the response and clear the exchange-local registers (`41_read.md` R83,
`10_state.md` R26). -/
def respondStep (s : State) : State :=
  { emit (.respond (response s)) s with op := 0, status := 0, cmd := 0, rsp := 0, phase := .idle }

/-! ## Fetch -/

/-- The operation the block is about to perform: in `IDLE` the one on the request port, in `START` the
command frame in `CMD` (`00_scope.md` R3; DESIGN CHOICE for the frames, log 6; safe). -/
def fetch (s : State) : Option Instr :=
  match s.phase with
  | .idle => (s.requests.head?).map fun p => decodeRequest p.word
  | .start => (decodeFrame s.cmd).toOption
  | .select | .wait | .release | .respond => none

/-- The sequencer's step when no operation is fetched. In `START` with a `CMD` that is no command
frame, which no run reaches, `CMD` is sent all the same (`41_read.md` R79). -/
def sequence (s : State) : Host.Outcome State Fault Refusal :=
  match s.phase with
  | .idle => .fault .awaitingRequest
  | .select => .next (selectStep s)
  | .start => sendFrame s.cmd s
  | .wait => waitStep s
  | .release => .next (releaseStep s)
  | .respond => .next (respondStep s)

end Sys2Proof.Machine
end

