-- ==== Sys2Proof/Machine/Configure.lean ====
section
/-! DEFINITION. The meaning of `CONFIG` (`40_config.md`). -/

namespace Sys2Proof.Machine

/-- `CONFIG model`: validate the model and latch the configuration, the voltage taken from `req_vref`
(`40_config.md` R70 to R73). -/
def execConfig (m : Byte) (s : State) : Host.Outcome State Fault Refusal :=
  whenAccepted s fun p s => acceptConfig m p.vref s

end Sys2Proof.Machine
end

