-- ==== Sys2Proof/Machine/Frames.lean ====
section
/-! DEFINITION. The meanings of the sixteen command frames (`42_wire_commands.md` R93 to R109): each is
sent to the ADC, once and whole, by the START step (`41_read.md` R79). -/

namespace Sys2Proof.Machine

/-- `SGL_CH0`: asks the ADC for pin 0 against ground (R94). -/
def execSglCh0 (pad : Byte) (s : State) : Host.Outcome State Fault Refusal :=
  sendFrame (withPad 0x018000 pad) s

/-- `SGL_CH1`: asks the ADC for pin 1 against ground (R95). -/
def execSglCh1 (pad : Byte) (s : State) : Host.Outcome State Fault Refusal :=
  sendFrame (withPad 0x019000 pad) s

/-- `SGL_CH2`: asks the ADC for pin 2 against ground (R96). -/
def execSglCh2 (pad : Byte) (s : State) : Host.Outcome State Fault Refusal :=
  sendFrame (withPad 0x01A000 pad) s

/-- `SGL_CH3`: asks the ADC for pin 3 against ground (R97). -/
def execSglCh3 (pad : Byte) (s : State) : Host.Outcome State Fault Refusal :=
  sendFrame (withPad 0x01B000 pad) s

/-- `SGL_CH4`: asks the ADC for pin 4 against ground (R98). -/
def execSglCh4 (pad : Byte) (s : State) : Host.Outcome State Fault Refusal :=
  sendFrame (withPad 0x01C000 pad) s

/-- `SGL_CH5`: asks the ADC for pin 5 against ground (R99). -/
def execSglCh5 (pad : Byte) (s : State) : Host.Outcome State Fault Refusal :=
  sendFrame (withPad 0x01D000 pad) s

/-- `SGL_CH6`: asks the ADC for pin 6 against ground (R100). -/
def execSglCh6 (pad : Byte) (s : State) : Host.Outcome State Fault Refusal :=
  sendFrame (withPad 0x01E000 pad) s

/-- `SGL_CH7`: asks the ADC for pin 7 against ground (R101). -/
def execSglCh7 (pad : Byte) (s : State) : Host.Outcome State Fault Refusal :=
  sendFrame (withPad 0x01F000 pad) s

/-- `DIFF_CH0`: asks the ADC for pin 0 (positive) against pin 1 (negative) (R102). -/
def execDiffCh0 (pad : Byte) (s : State) : Host.Outcome State Fault Refusal :=
  sendFrame (withPad 0x010000 pad) s

/-- `DIFF_CH1`: asks the ADC for pin 1 (positive) against pin 0 (negative) (R103). -/
def execDiffCh1 (pad : Byte) (s : State) : Host.Outcome State Fault Refusal :=
  sendFrame (withPad 0x011000 pad) s

/-- `DIFF_CH2`: asks the ADC for pin 2 (positive) against pin 3 (negative) (R104). -/
def execDiffCh2 (pad : Byte) (s : State) : Host.Outcome State Fault Refusal :=
  sendFrame (withPad 0x012000 pad) s

/-- `DIFF_CH3`: asks the ADC for pin 3 (positive) against pin 2 (negative) (R105). -/
def execDiffCh3 (pad : Byte) (s : State) : Host.Outcome State Fault Refusal :=
  sendFrame (withPad 0x013000 pad) s

/-- `DIFF_CH4`: asks the ADC for pin 4 (positive) against pin 5 (negative) (R106). -/
def execDiffCh4 (pad : Byte) (s : State) : Host.Outcome State Fault Refusal :=
  sendFrame (withPad 0x014000 pad) s

/-- `DIFF_CH5`: asks the ADC for pin 5 (positive) against pin 4 (negative) (R107). -/
def execDiffCh5 (pad : Byte) (s : State) : Host.Outcome State Fault Refusal :=
  sendFrame (withPad 0x015000 pad) s

/-- `DIFF_CH6`: asks the ADC for pin 6 (positive) against pin 7 (negative) (R108). -/
def execDiffCh6 (pad : Byte) (s : State) : Host.Outcome State Fault Refusal :=
  sendFrame (withPad 0x016000 pad) s

/-- `DIFF_CH7`: asks the ADC for pin 7 (positive) against pin 6 (negative) (R109). -/
def execDiffCh7 (pad : Byte) (s : State) : Host.Outcome State Fault Refusal :=
  sendFrame (withPad 0x017000 pad) s

end Sys2Proof.Machine
end

