-- ==== Sys2Proof/Machine/Reads.lean ====
section
/-! DEFINITION. The meanings of `READRAW`, `READ` and `READV` (`41_read.md`): the acceptance of R75.
What follows (R78 to R83) is the sequencer's, step by step; `Machine/Call.lean` has the whole call. -/

namespace Sys2Proof.Machine

/-- `READRAW channel, mode` (`41_read.md` R85). -/
def execReadraw (c : Byte) (m : Mode) (s : State) : Host.Outcome State Fault Refusal :=
  whenAccepted s fun _ s => acceptRead (.readRaw c m) c m s

/-- `READ channel, mode` (`41_read.md` R86). -/
def execRead (c : Byte) (m : Mode) (s : State) : Host.Outcome State Fault Refusal :=
  whenAccepted s fun _ s => acceptRead (.read c m) c m s

/-- `READV channel`: the mode is SingleEnded whatever the request's `s` bit (`41_read.md` R87). -/
def execReadv (c : Byte) (s : State) : Host.Outcome State Fault Refusal :=
  whenAccepted s fun _ s => acceptRead (.readV c) c .singleEnded s

end Sys2Proof.Machine
end

