-- ==== Sys2Proof/Machine/Dispatch.lean ====
section
/-! DEFINITION. One arm per operation of the opcode table. -/

namespace Sys2Proof.Machine

def exec (i : Instr) (s : State) : Host.Outcome State Fault Refusal :=
  match i with
  | .config m => Sys2Proof.Machine.execConfig m s
  | .readraw c m => Sys2Proof.Machine.execReadraw c m s
  | .read c m => Sys2Proof.Machine.execRead c m s
  | .readv c => Sys2Proof.Machine.execReadv c s
  | .sglCh0 p => Sys2Proof.Machine.execSglCh0 p s
  | .sglCh1 p => Sys2Proof.Machine.execSglCh1 p s
  | .sglCh2 p => Sys2Proof.Machine.execSglCh2 p s
  | .sglCh3 p => Sys2Proof.Machine.execSglCh3 p s
  | .sglCh4 p => Sys2Proof.Machine.execSglCh4 p s
  | .sglCh5 p => Sys2Proof.Machine.execSglCh5 p s
  | .sglCh6 p => Sys2Proof.Machine.execSglCh6 p s
  | .sglCh7 p => Sys2Proof.Machine.execSglCh7 p s
  | .diffCh0 p => Sys2Proof.Machine.execDiffCh0 p s
  | .diffCh1 p => Sys2Proof.Machine.execDiffCh1 p s
  | .diffCh2 p => Sys2Proof.Machine.execDiffCh2 p s
  | .diffCh3 p => Sys2Proof.Machine.execDiffCh3 p s
  | .diffCh4 p => Sys2Proof.Machine.execDiffCh4 p s
  | .diffCh5 p => Sys2Proof.Machine.execDiffCh5 p s
  | .diffCh6 p => Sys2Proof.Machine.execDiffCh6 p s
  | .diffCh7 p => Sys2Proof.Machine.execDiffCh7 p s

end Sys2Proof.Machine
end

