-- ==== Sys2Proof/Machine/Step.lean ====
section
/-! DEFINITION. One step of the block, and the placing of an operation where the step fetches it. -/

namespace Sys2Proof.Machine

/-- One step of the phase machine (`10_state.md` R16): perform the operation fetched, or take the
sequencer's step. Each step is one transition of R16 and one event of R24. -/
def step (s : State) : Host.Outcome State Fault Refusal :=
  match fetch s with
  | some i => exec i s
  | none => sequence s

/-- Place an operation where the next step fetches it: a request word on the request port of an idle
block, with 3.3 beside it, or a command frame in `CMD` of a block in `START`
with chip-select low (`10_state.md` R16, R20, R23; DESIGN CHOICE, log 10; safe). -/
def State.withFetchWord (s : State) (nbits w : Nat) : State :=
  if nbits = 16 then
    { s with
      phase := .idle, csN := true,
      requests := ⟨BitVec.ofNat 16 w, Config.referenceVref⟩ :: s.requests }
  else if nbits = 24 then
    { s with phase := .start, csN := false, cmd := BitVec.ofNat 24 w }
  else s

end Sys2Proof.Machine
end

