-- ==== Sys2Proof/Machine/Environment.lean ====
section
/-! DEFINITION. What the outside world can do to the block between steps: present a request, answer an
exchange, reset. None of these is a step of the block (`00_scope.md` R6, `70_reset_and_hazards.md`
R132). -/

namespace Sys2Proof.Machine

/-- The host presents one more request; it is held until the block is idle (`10_state.md` R20). -/
def State.presentRequest (p : PortRequest) (s : State) : State :=
  { s with requests := s.requests ++ [p] }

/-- The host presents `CONFIG m`, with 3.3 on `req_vref` when the caller gave no voltage
(`30_encoding.md` R62, R63, `40_config.md` R70). -/
def State.presentConfig (m : Byte) (vref : Option Config.VoltT) (s : State) : State :=
  s.presentRequest ⟨requestWord 0b00 0 m, vref.getD Config.defaultVref⟩

/-- The transport answers the oldest exchange it has not yet answered, or settles its answer to the next
one to come (`10_state.md` R22). An exchange that a reset cut short is the oldest there is, and its
answer is ignored: no register, and no answer to another exchange, changes
(`70_reset_and_hazards.md` R132). -/
def State.answerExchange (a : Answer) (s : State) : State :=
  match s.abandoned with
  | 0 => { s with answers := s.answers ++ [a] }
  | n + 1 => { s with abandoned := n }

/-- The transport drops the oldest exchange that a reset cut short and never answers it
(`93_implementation_defined.md` U8). -/
def State.dropExchange (s : State) : State :=
  { s with abandoned := s.abandoned - 1 }

/-- An exchange may be with the transport: `xfer_start` is 1 in `START`, and in `WAIT` the answer is
awaited (`10_state.md` R22). -/
def State.underWay (s : State) : Bool := s.phase == .start || s.phase == .wait

/-- `rst` rises: every register and the trace take their reset values at once and the operation in
progress is abandoned (`70_reset_and_hazards.md` R130, R132). The answer of an exchange under way is
ignored: one already settled is dropped, one that is still to come is counted in `abandoned`. Requests not yet
accepted stay with the host. Reset is no step; a run in which this happens is outside the properties of
`41_read.md` R89 and R90 (R132). DESIGN CHOICE (log 8; unsafe) where the spec does not say what the host
and the transport do meanwhile. -/
def State.applyReset (s : State) : State :=
  { State.reset with
    requests := s.requests
    answers := if s.underWay then s.answers.tail else s.answers
    abandoned := if s.underWay && s.answers.isEmpty then s.abandoned + 1 else s.abandoned }

end Sys2Proof.Machine
end

