-- ==== Sys2Proof/Machine/Ports.lean ====
section
/-! DEFINITION. The output ports (`10_state.md` R20 to R22), functions of the state in which a step is
taken: they are no registers and hold nothing (R21, R25; DEDUCED, log 11; safe). -/

namespace Sys2Proof.Machine.Ports

/-- `req_ready`: 1 exactly in `IDLE` (R20). -/
def reqReady (s : State) : Bool := s.phase == .idle

/-- `rsp_valid`: 1 in the RESPOND step only (R21, `41_read.md` R83). -/
def rspValid (s : State) : Bool := s.phase == .respond

/-- `rsp_status`, `rsp_frame`, `rsp_raw` and `rsp_volt`: the response in the RESPOND step, 0 otherwise
(R21, R27). -/
def rsp (s : State) : Response :=
  if s.phase = .respond then response s else ⟨0, 0, 0, .zero⟩

/-- `xfer_start`: 1 in the START step only (R22, `41_read.md` R79). -/
def xferStart (s : State) : Bool := s.phase == .start

/-- `xfer_out`: `CMD` in the START step, 0 otherwise (R22, R27). -/
def xferOut (s : State) : Frame :=
  if s.phase = .start then s.cmd else 0

end Sys2Proof.Machine.Ports
end

