-- ==== Sys2Proof/Machine/Voltage.lean ====
section
/-! DEFINITION. Instances of the number type of voltages: the exact rationals, the spec's reference
instance, and the binary floating-point formats, which the spec allows (`41_read.md` R88,
`92_eei_decisions.md` D17). The block is built with `Config.numerics`, of which neither is assumed. -/

namespace Sys2Proof.Machine

open Sys2Proof.Config (VoltT Numerics)

/-! ## The reference instance -/

/-- The exact rationals, where `vscale` is exact (`41_read.md` R88). They have no value that is no
number; on one the result is one again. -/
def exactNumerics : Numerics where
  literal := .number
  multiply
    | .number a, .number b => .number (a * b)
    | _, _ => .special 0
  divide
    | .number a, .number b => .number (a / b)
    | _, _ => .special 0

/-! ## Binary floating point

The arithmetic of IEEE 754 with rounding to the nearest value, ties to even. That format and that
rounding are general knowledge (PRESUMED, log 2; safe, since no definition of the block uses them): the
spec names no format. -/

/-- A binary format: the bits of its significand, and the least and greatest exponent of the
significand's last place. -/
structure BinaryFormat where
  precision : Nat
  leastExponent : Int
  greatestExponent : Int
deriving DecidableEq, Repr

/-- IEEE 754 binary64, the format of `95_test_vectors.md`'s note on V5. -/
def binary64 : BinaryFormat := ⟨53, -1074, 971⟩

/-- IEEE 754 binary32, a narrower format such as a microcontroller build may use. -/
def binary32 : BinaryFormat := ⟨24, -149, 104⟩

/-- What arithmetic asks of a value, beside its sign. -/
inductive VoltKind where
  | zero
  | finite (q : Rat)
  | infinite
  | nan
deriving DecidableEq, Repr

/-- The values of a binary format that are no rational number: negative zero, the infinities, and any
other code for not-a-number. -/
def voltKind : VoltT → VoltKind
  | .number q => if q = 0 then .zero else .finite q
  | .special 0 => .zero
  | .special 1 => .infinite
  | .special 2 => .infinite
  | .special _ => .nan

/-- The sign of a value of a binary format: `true` is negative. -/
def voltNegative : VoltT → Bool
  | .number q => decide (q < 0)
  | .special code => code == 0 || code == 2

/-- A zero by its sign. -/
def signedZero (negative : Bool) : VoltT := if negative then .special 0 else .zero

/-- An infinity by its sign. -/
def signedInfinity (negative : Bool) : VoltT := .special (if negative then 2 else 1)

/-- Not-a-number. -/
def notANumber : VoltT := .special 3

/-- `n / d` rounded to the nearest natural, a tie to the even one. -/
def nearestEven (n d : Nat) : Nat :=
  let q := n / d
  let twice := 2 * (n % d)
  if twice < d then q else if d < twice then q + 1 else if q % 2 = 0 then q else q + 1

/-- `2 ^ e` as a numerator and a denominator. -/
def powerOfTwo (e : Int) : Nat × Nat := (2 ^ e.toNat, 2 ^ (-e).toNat)

/-- The exponent of the last place of `n / d` in the format, for positive `n` and `d`. -/
def lastPlace (F : BinaryFormat) (n d : Nat) : Int :=
  let guess : Int := (n.log2 : Int) - d.log2
  let scale := powerOfTwo guess
  let exponent := if n * scale.2 < d * scale.1 then guess - 1 else guess
  max (exponent - (F.precision - 1 : Nat)) F.leastExponent

/-- The value of the format nearest to a rational number; beyond the greatest, an infinity. -/
def roundBinary (F : BinaryFormat) (q : Rat) : VoltT :=
  if q = 0 then .zero
  else
    let e := lastPlace F q.num.natAbs q.den
    let scale := powerOfTwo e
    let greatest := powerOfTwo F.greatestExponent
    let significand := nearestEven (q.num.natAbs * scale.2) (q.den * scale.1)
    if significand = 0 then signedZero (decide (q < 0))
    else if 2 ^ F.precision * greatest.1 * scale.2 ≤ significand * scale.1 * greatest.2 then
      signedInfinity (decide (q < 0))
    else
      let magnitude := significand * scale.1
      .number (mkRat (if q < 0 then -magnitude else magnitude) scale.2)

/-- The product in a binary format. -/
def multiplyBinary (F : BinaryFormat) (x y : VoltT) : VoltT :=
  let negative := voltNegative x != voltNegative y
  match voltKind x, voltKind y with
  | .nan, _ => notANumber
  | _, .nan => notANumber
  | .infinite, .zero => notANumber
  | .zero, .infinite => notANumber
  | .infinite, _ => signedInfinity negative
  | _, .infinite => signedInfinity negative
  | .zero, _ => signedZero negative
  | _, .zero => signedZero negative
  | .finite a, .finite b => roundBinary F (a * b)

/-- The quotient in a binary format. -/
def divideBinary (F : BinaryFormat) (x y : VoltT) : VoltT :=
  let negative := voltNegative x != voltNegative y
  match voltKind x, voltKind y with
  | .nan, _ => notANumber
  | _, .nan => notANumber
  | .infinite, .infinite => notANumber
  | .zero, .zero => notANumber
  | .infinite, _ => signedInfinity negative
  | _, .infinite => signedZero negative
  | _, .zero => signedInfinity negative
  | .zero, _ => signedZero negative
  | .finite a, .finite b => roundBinary F (a / b)

/-- The arithmetic of a binary floating-point format, an instance `41_read.md` R88 allows. -/
def binaryNumerics (F : BinaryFormat) : Numerics where
  literal := roundBinary F
  multiply := multiplyBinary F
  divide := divideBinary F

end Sys2Proof.Machine
end

