-- ==== Sys2Proof/Machine/Wire.lean ====
section
/-! DEFINITION. One exchange bit by bit (`20_memory.md` R34, R37) and the least time it takes
(`70_reset_and_hazards.md` R147). The transport shifts; no rule of the block reads these. -/

namespace Sys2Proof.Machine.Wire

/-- The number of bit times of one exchange (R37, R147). -/
def bitTimes : Nat := 24

/-- The bit of a frame on the wire at bit time `t`, most significant first: `f[23 - t]`. Sent bits are
those of `CMD`, received bits those of `RSP` (R37). -/
def bitAt (f : Frame) (t : Nat) : Bool := f.getLsbD (23 - t)

/-- The bytes of a frame in the order they go over the wire (R34). -/
def bytes (f : Frame) : List Byte := [frameByte0 f, frameByte1 f, frameByte2 f]

/-- The frame of three received bytes, the first in bits 23:16 (R34, `10_state.md` R12). -/
def ofBytes (b0 b1 b2 : Byte) : Frame := b0 ++ b1 ++ b2

/-- The least duration of one exchange in seconds at a clock of `sclkHz`, the parameter `SCLK_HZ`
(`00_scope.md` R8, `70_reset_and_hazards.md` R147). -/
def leastSeconds (sclkHz : Nat) : Rat := (bitTimes : Rat) / (sclkHz : Rat)

end Sys2Proof.Machine.Wire
end

