-- ==== Sys2Proof/Machine/Call.lean ====
section
/-! DEFINITION. The same semantics as one function per call (`41_read.md` R91), independent of the
phases. Where the two differ the phase machine governs; that they agree is a statement. -/

namespace Sys2Proof.Machine

/-- The configuration `(CONFIGURED, MODEL, VREF)`, the `S` of R91. -/
structure Settings where
  configured : Bool
  model : BitVec 4
  vref : Config.VoltT
deriving DecidableEq, Repr

/-- The configuration a state holds. -/
def State.settings (s : State) : Settings := ⟨s.configured, s.model, s.vref⟩

/-- What a call gives: the new configuration, the response, the events. -/
structure CallResult where
  settings : Settings
  response : Response
  events : List Event
deriving DecidableEq, Repr

/-- A call that ends at acceptance: its only events are `Accept` and `Respond` (R91, `40_config.md`
R73). -/
def endedAtAcceptance (S : Settings) (r : Request) (rsp : Response) : CallResult :=
  ⟨S, rsp, [.accept r, .respond rsp]⟩

/-- The events of a read that reaches the bus: `heard` is the transport's answer as an event (R91). -/
def busEvents (r : Request) (sent : Frame) (heard : Event) (rsp : Response) : List Event :=
  [.accept r, .csLow, .xferStart sent, heard, .csHigh, .respond rsp]

/-- The call function on a read of a valid channel, by the transport's answer; no value when the
exchange is never answered (R91). -/
def callOnBus (S : Settings) (r : Request) (sent : Frame) : Option Answer → Option CallResult
  | none => none
  | some .err =>
    let rsp := errorResponse (errorCode .transportError)
    some ⟨S, rsp, busEvents r sent .xferErr rsp⟩
  | some (.ok f) =>
    let rsp := okResponse r.op f S.vref
    some ⟨S, rsp, busEvents r sent (.xferOk f) rsp⟩

/-- The call function (R91). -/
def call (S : Settings) (r : Request) (answer : Option Answer) : Option CallResult :=
  match r with
  | .config m v =>
    match configError S.configured m with
    | some e => some (endedAtAcceptance S r (errorResponse (errorCode e)))
    | none => some (endedAtAcceptance ⟨true, m.setWidth 4, v⟩ r ⟨0, 0, 0, .zero⟩)
  | .readRaw c m => callRead S r c m answer
  | .read c m => callRead S r c m answer
  | .readV c => callRead S r c .singleEnded answer
where
  /-- The call function on a read of channel `c` in mode `m` (R91). -/
  callRead (S : Settings) (r : Request) (c : Byte) (m : Mode) (answer : Option Answer) :
      Option CallResult :=
    match readError S.configured S.model c with
    | some e => some (endedAtAcceptance S r (errorResponse (errorCode e)))
    | none => callOnBus S r (cmdFrame m (c.setWidth 3)) answer

end Sys2Proof.Machine
end

