-- ==== Sys2Proof/Machine/ChannelSpace.lean ====
section
/-! DEFINITION. The channel space behind the transport (`20_memory.md` R30 to R32, R42): what a channel
addresses in each mode, and which channels and frames a model admits. The pairing is the ADC's; the
block sends the channel itself (R43). -/

namespace Sys2Proof.Machine.ChannelSpace

/-- The positive pin of the differential pair of channel `c` (R32). -/
def positivePin (c : Channel) : Channel := c

/-- The negative pin of the differential pair of channel `c`: bit 0 inverted (R32). -/
def negativePin (c : Channel) : Channel := c ^^^ 1

/-- What a frame asks the ADC to measure: the pin, and the pin it is measured against, none for ground
(R31, R32). -/
def measures (m : Mode) (c : Channel) : Channel × Option Channel :=
  match m with
  | .singleEnded => (c, none)
  | .differential => (positivePin c, some (negativePin c))

/-- The channels, in order (R30). -/
def channels : List Channel := [0, 1, 2, 3, 4, 5, 6, 7]

/-- The channels a model admits, in both modes (R42). -/
def usable (model : BitVec 4) : List Channel :=
  channels.filter fun c => c.toNat < model.toNat

/-- The command frames the block can send under a model (`42_wire_commands.md` R110). -/
def sendable (model : BitVec 4) : List Frame :=
  (usable model).map (cmdFrame .singleEnded) ++ (usable model).map (cmdFrame .differential)

end Sys2Proof.Machine.ChannelSpace
end

