-- ==== Sys2Proof/Safety.lean ====
section
/-! DEFINITION. What counts as a safe run: the invariants of the registers, the counts over the trace,
and the monitor that reads a trace as a sequence of calls. -/

namespace Sys2Proof.Safety

open Sys2Proof.Machine

/-! ## Registers -/

/-- The phases in which chip-select is low (`10_state.md` R16, R23). -/
def csLowPhase : Phase → Bool
  | .start | .wait | .release => true
  | .idle | .select | .respond => false

/-- `CS_N = 0` exactly in `START`, `WAIT` and `RELEASE` (`10_state.md` R23). -/
abbrev ChipSelectOk (s : State) : Prop :=
  s.csN = !csLowPhase s.phase

/-- The exchange-local registers are all 0 (`10_state.md` R26). -/
abbrev LocalsClear (s : State) : Prop :=
  s.op = 0 ∧ s.status = 0 ∧ s.cmd = 0 ∧ s.rsp = 0

/-- The exchange-local registers are all 0 in `IDLE` (`10_state.md` R26). -/
abbrev NoLeak (s : State) : Prop :=
  s.phase = .idle → LocalsClear s

/-- `MODEL` is 2, 4 or 8 when configured and 0 before (`10_state.md` R14). -/
abbrev SettingsLegal (s : State) : Prop :=
  if s.configured then s.model = 2 ∨ s.model = 4 ∨ s.model = 8 else s.model = 0

/-- `STATUS` holds no unused code (`60_exceptions.md` R112). -/
abbrev StatusLegal (s : State) : Prop :=
  s.status.toNat ≤ 5

/-- While a frame waits to be sent, the block is configured and the frame is one its model admits
(`42_wire_commands.md` R110). -/
abbrev CommandAdmitted (s : State) : Prop :=
  (s.phase = .select ∨ s.phase = .start) →
    s.configured = true ∧ s.cmd ∈ ChannelSpace.sendable s.model

/-- The block is at rest between two calls (`10_state.md` R16, R23, R26). -/
abbrev AtRest (s : State) : Prop :=
  s.phase = .idle ∧ s.csN = true ∧ LocalsClear s

/-- The transitions of `PHASE`, the table of `10_state.md` R16. -/
def successors : Phase → List Phase
  | .idle => [.respond, .select]
  | .select => [.start]
  | .start => [.wait]
  | .wait => [.release]
  | .release => [.respond]
  | .respond => [.idle]

/-! ## Counts over the trace (`41_read.md` R90) -/

/-- The number of `CsLow` events. -/
def countCsLow (t : List Event) : Nat :=
  (t.filter fun e => match e with | .csLow => true | _ => false).length

/-- The number of `CsHigh` events. -/
def countCsHigh (t : List Event) : Nat :=
  (t.filter fun e => match e with | .csHigh => true | _ => false).length

/-- The number of `XferStart` events, the document's transport call count (`10_state.md` R24). -/
def countXferStart (t : List Event) : Nat :=
  (t.filter fun e => match e with | .xferStart _ => true | _ => false).length

/-- Chip-select has gone low once more than high while it is low, and as often while it is high
(`41_read.md` R90 (c)). -/
abbrev CsBalanced (s : State) : Prop :=
  countCsLow s.trace = countCsHigh s.trace + if s.csN then 0 else 1

/-- An exchange has been started for every time chip-select has gone low, but for the one about to be
handed over in `START` (`20_memory.md` R40, `41_read.md` R90 (b)). -/
abbrev OneExchangePerSelect (s : State) : Prop :=
  countCsLow s.trace = countXferStart s.trace + if s.phase = .start then 1 else 0

/-! ## The trace as a sequence of calls -/

/-- How far into a call a trace has come. -/
inductive CallStage where
  /-- Between two calls. -/
  | outside
  /-- A read passed its checks; chip-select is still high. -/
  | selecting (r : Request) (sent : Frame)
  /-- Chip-select is low; nothing sent yet. -/
  | low (r : Request) (sent : Frame)
  /-- The frame is with the transport. -/
  | asked (r : Request)
  /-- The transport has answered; chip-select is still low; `rsp` is what the call function gives. -/
  | answered (rsp : Response)
  /-- Nothing is left but to deliver `rsp`, what the call function gives. -/
  | due (rsp : Response)
deriving DecidableEq, Repr

/-- What a trace says of the block: its configuration, and how far the call in progress has come. -/
structure Monitor where
  settings : Settings
  stage : CallStage
deriving DecidableEq, Repr

/-- The monitor on the acceptance of a request between two calls: the first event of the call
function's (`41_read.md` R91). -/
def onAccept (S : Settings) (r : Request) : Monitor :=
  match call S r none with
  | some res => ⟨res.settings, .due res.response⟩
  | none =>
    match r.target with
    | some (c, m) => ⟨S, .selecting r (cmdFrame m (c.setWidth 3))⟩
    | none => ⟨S, .outside⟩

/-- The monitor on one event; none when the event can not stand there in any call of
`41_read.md` R91. -/
def onEvent (M : Monitor) (e : Event) : Option Monitor :=
  match M.stage, e with
  | .outside, .accept r => some (onAccept M.settings r)
  | .selecting r f, .csLow => some ⟨M.settings, .low r f⟩
  | .low r f, .xferStart out => if out = f then some ⟨M.settings, .asked r⟩ else none
  | .asked r, .xferOk f => some ⟨M.settings, .answered (okResponse r.op f M.settings.vref)⟩
  | .asked _, .xferErr => some ⟨M.settings, .answered (errorResponse (errorCode .transportError))⟩
  | .answered rsp, .csHigh => some ⟨M.settings, .due rsp⟩
  | .due rsp, .respond out => if out = rsp then some ⟨M.settings, .outside⟩ else none
  | _, _ => none

/-- The monitor over a trace; none when the trace is no sequence of calls with at most one unfinished
call at its end. -/
def onTrace (M : Monitor) (t : List Event) : Option Monitor :=
  t.foldl (fun M? e => M?.bind fun M => onEvent M e) (some M)

/-- The monitor before any event, for an unconfigured block whose `VREF` is `v`. -/
def Monitor.unconfigured (v : Config.VoltT) : Monitor :=
  ⟨⟨false, 0, v⟩, .outside⟩

/-- The stage that the registers of a state show, the request in progress left open where it is not in
a register. -/
def stageAgrees (s : State) : CallStage → Prop
  | .outside => s.phase = .idle ∧ LocalsClear s
  | .selecting r f =>
    s.phase = .select ∧ s.op = r.op ∧ s.cmd = f ∧ s.status = 0 ∧ s.rsp = 0
  | .low r f => s.phase = .start ∧ s.op = r.op ∧ s.cmd = f ∧ s.status = 0 ∧ s.rsp = 0
  | .asked r => s.phase = .wait ∧ s.op = r.op ∧ s.status = 0 ∧ s.rsp = 0
  | .answered rsp => s.phase = .release ∧ response s = rsp
  | .due rsp => s.phase = .respond ∧ response s = rsp

/-- The trace is a sequence of calls as `41_read.md` R91 gives them, it yields the configuration the
state holds, and the unfinished call at its end has come as far as the registers show. The reference
voltage before configuration is left open (`10_state.md` R15). -/
def Conforms (s : State) : Prop :=
  ∃ v M, onTrace (Monitor.unconfigured v) s.trace = some M ∧
    M.settings = s.settings ∧ stageAgrees s M.stage

end Sys2Proof.Safety
end

