-- ==== Sys2Proof/Certificates/Slice0/Obligations.lean ====
section
/-! DEFINITION. What is claimed of the machine: statements for the provers, from the numbered rules
of the spec. -/

open Sys2Proof Sys2Proof.Machine Sys2Proof.Safety

/-- Reset leaves every register, port and the trace at the value of the reset table (R27). -/
def Obligations.ResetLeavesSpecValues : Prop :=
  State.reset.configured = false ∧ State.reset.model = 0 ∧ State.reset.phase = .idle ∧
    State.reset.op = 0 ∧ State.reset.status = 0 ∧ State.reset.cmd = 0x000000 ∧
    State.reset.rsp = 0x000000 ∧ State.reset.csN = true ∧ State.reset.trace = [] ∧
    Ports.reqReady State.reset = true ∧ Ports.rspValid State.reset = false ∧
    Ports.xferStart State.reset = false ∧ Ports.rsp State.reset = ⟨0, 0, 0, .zero⟩ ∧
    Ports.xferOut State.reset = 0

/-- The reset state meets every invariant stated here (R14, R23, R26, R27, R90, R110, R112). -/
def Obligations.ResetMeetsInvariants : Prop :=
  ChipSelectOk State.reset ∧ NoLeak State.reset ∧ SettingsLegal State.reset ∧
    StatusLegal State.reset ∧ CommandAdmitted State.reset ∧ CsBalanced State.reset ∧
    OneExchangePerSelect State.reset ∧ Conforms State.reset

/-- A rising reset brings every register and the trace to its reset value from any state (R130,
R131, R132). Keeping the unaccepted requests, and which answers are dropped or counted as still to
come, is the model's choice (log 8, DESIGN CHOICE). -/
def Obligations.ResetFromAnyState : Prop :=
  ∀ s : State,
    s.applyReset.configured = false ∧ s.applyReset.model = 0 ∧ s.applyReset.phase = .idle ∧
      LocalsClear s.applyReset ∧ s.applyReset.csN = true ∧ s.applyReset.trace = [] ∧
      s.applyReset.requests = s.requests ∧
      (s.phase = .start ∨ s.phase = .wait → s.applyReset.answers = s.answers.tail ∧
        s.applyReset.abandoned = if s.answers = [] then s.abandoned + 1 else s.abandoned) ∧
      (s.phase ≠ .start → s.phase ≠ .wait →
        s.applyReset.answers = s.answers ∧ s.applyReset.abandoned = s.abandoned)

/-- An answer that comes after a reset cut its exchange short is ignored: the block is as it was, and
the next exchange takes the next answer (R132). That the transport answers in order, and that it may
also drop such an exchange, is the model's form of the environment (log 8, DESIGN CHOICE). -/
def Obligations.LateAnswerIsIgnored : Prop :=
  (∀ (s : State) (late : Answer), (s.phase = .start ∨ s.phase = .wait) → s.answers = [] →
      s.applyReset.answerExchange late = { s.applyReset with abandoned := s.abandoned } ∧
        s.applyReset.dropExchange = { s.applyReset with abandoned := s.abandoned } ∧
        step (s.applyReset.answerExchange late) = step s.applyReset.dropExchange) ∧
    (∀ (s : State) (a : Answer), s.abandoned = 0 →
      s.answerExchange a = { s with answers := s.answers ++ [a] }) ∧
    (∀ s t : State, step s = .next t → t.abandoned = s.abandoned)

/-- CS_N is low exactly in START, WAIT and RELEASE: at reset, and every step keeps it (R23). -/
def Obligations.ChipSelectLevelInvariant : Prop :=
  ChipSelectOk State.reset ∧
    (∀ s t : State, ChipSelectOk s → step s = .next t → ChipSelectOk t) ∧
    (∀ s : State, ChipSelectOk s →
      (s.csN = false ↔ s.phase = .start ∨ s.phase = .wait ∨ s.phase = .release) ∧
      (s.csN = true ↔ s.phase = .idle ∨ s.phase = .select ∨ s.phase = .respond)) ∧
    (∀ s : State, ChipSelectOk s → Ports.reqReady s = true → s.csN = true)

/-- The exchange-local registers are 0 whenever the block is idle: every step keeps it (R26, R83,
R139). -/
def Obligations.StepKeepsLocalsClearInIdle : Prop :=
  ∀ s t : State, NoLeak s → step s = .next t → NoLeak t

/-- MODEL is 2, 4 or 8 when configured and 0 before: every step keeps it (R14, R70). -/
def Obligations.StepKeepsSettingsLegal : Prop :=
  ∀ s t : State, SettingsLegal s → step s = .next t → SettingsLegal t

/-- STATUS never holds one of the unused codes 6 and 7: every step keeps it (R18, R112). -/
def Obligations.StepKeepsStatusLegal : Prop :=
  ∀ s t : State, StatusLegal s → step s = .next t → StatusLegal t

/-- A frame waiting to be sent is one the configured model admits: every step keeps it (R76, R110).
-/
def Obligations.StepKeepsCommandAdmitted : Prop :=
  ∀ s t : State, CommandAdmitted s → step s = .next t → CommandAdmitted t

/-- CsLow events exceed CsHigh events by one exactly while the line is low: every step keeps it
(R90, R134). -/
def Obligations.StepKeepsChipSelectBalanced : Prop :=
  ∀ s t : State, ChipSelectOk s → CsBalanced s → step s = .next t → CsBalanced t

/-- One exchange is started for each time chip-select goes low: every step keeps it (R40, R79, R90).
-/
def Obligations.StepKeepsOneExchangePerSelect : Prop :=
  ∀ s t : State, OneExchangePerSelect s → step s = .next t → OneExchangePerSelect t

/-- TRACE is always a sequence of calls as the call function gives them: every step keeps it (R24,
R44, R46, R83, R90, R91, R92). -/
def Obligations.StepKeepsTraceConforming : Prop :=
  ∀ s t : State, Conforms s → step s = .next t → Conforms t

/-- A block at rest performs a request exactly as the one-call function says (R91, R78, R79, R80,
R81, R82, R83). -/
def Obligations.CallFunctionRefinesPhases : Prop :=
  ∀ (s : State) (p : PortRequest) (rest : List PortRequest) (res : CallResult),
    AtRest s → s.requests = p :: rest →
    call s.settings p.decoded s.answers.head? = some res →
    core.run res.events.length s = .next
      { s with
        configured := res.settings.configured
        model := res.settings.model
        vref := res.settings.vref
        trace := s.trace ++ res.events
        requests := rest
        answers := if res.events.length = 2 then s.answers else s.answers.tail }

/-- A valid read whose exchange is never answered stops in WAIT with chip-select low (R137, R81,
R91). That the state with no enabled step is the fault awaitingTransport of the step function is the
model's form (log 5, DESIGN CHOICE). -/
def Obligations.UnansweredReadStaysInWait : Prop :=
  ∀ (s : State) (p : PortRequest) (rest : List PortRequest) (c : Byte) (m : Mode),
    AtRest s → s.requests = p :: rest → p.decoded.target = some (c, m) →
    s.configured = true → c.toNat < s.model.toNat → s.answers = [] →
    ∃ u : State, core.run 3 s = .next u ∧ u.phase = .wait ∧ u.csN = false ∧
      u.trace = s.trace ++ [.accept p.decoded, .csLow, .xferStart (cmdFrame m (c.setWidth 3))] ∧
      step u = .fault .awaitingTransport

/-- Every step makes one of the transitions of the phase table and no other (R16). -/
def Obligations.StepFollowsPhaseTable : Prop :=
  ∀ s t : State, step s = .next t → t.phase ∈ successors s.phase

/-- Every step appends exactly one event to the trace (R24, R44). -/
def Obligations.StepAppendsOneEvent : Prop :=
  ∀ s t : State, step s = .next t → ∃ e : Event, t.trace = s.trace ++ [e]

/-- No operation and no step changes CONFIGURED, MODEL or VREF once configured (R14, R15, R72, R91).
-/
def Obligations.ConfigurationNeverChangesOnceMade : Prop :=
  (∀ (i : Instr) (s t : State), s.configured = true → exec i s = .next t →
      t.settings = s.settings) ∧
    (∀ s t : State, s.configured = true → step s = .next t → t.settings = s.settings)

/-- Every answer of the transport leads through RELEASE: chip-select goes high before any response
(R80, R81, R82, R89). -/
def Obligations.AnsweredExchangeAlwaysReleases : Prop :=
  ∀ (s : State) (a : Answer) (rest : List Answer),
    s.phase = .wait → s.answers = a :: rest →
    ∃ t u : State, step s = .next t ∧ t.phase = .release ∧ step t = .next u ∧
      u.csN = true ∧ u.phase = .respond ∧ u.trace = t.trace ++ [.csHigh] ∧
      u.status = t.status ∧ u.rsp = t.rsp

/-- Every frame handed to the transport is one the configured model admits (R59, R76, R110). -/
def Obligations.OnlyAdmittedFramesAreSent : Prop :=
  ∀ (s t : State) (f : Frame),
    CommandAdmitted s → step s = .next t → t.trace = s.trace ++ [.xferStart f] →
    s.configured = true ∧ f ∈ ChannelSpace.sendable s.model

/-- A request is taken only in IDLE, one at a time, and a busy block ignores it (R20, R135). -/
def Obligations.RequestsTakenOnlyWhenIdle : Prop :=
  (∀ (s : State) (c : Byte) (m : Mode), s.phase ≠ .idle →
      exec (.config c) s = .next s ∧ exec (.readraw c m) s = .next s ∧
        exec (.read c m) s = .next s ∧ exec (.readv c) s = .next s) ∧
    (∀ s t : State, s.phase ≠ .idle → step s = .next t → t.requests = s.requests) ∧
    (∀ s t : State, s.phase = .idle → step s = .next t →
      ∃ p : PortRequest, s.requests = p :: t.requests)

/-- An answer of the transport is taken only in WAIT, exactly one per exchange (R22, R40). That the
answers wait in a list is the model's own form of the environment (log 4, DESIGN CHOICE). -/
def Obligations.AnswersTakenOnlyInWait : Prop :=
  (∀ s t : State, s.phase ≠ .wait → step s = .next t → t.answers = s.answers) ∧
    (∀ s t : State, s.phase = .wait → step s = .next t →
      ∃ a : Answer, s.answers = a :: t.answers)

/-- A step runs the operation it fetches: the request on the port, or the command frame in CMD (R3,
R20, R79). That START fetches CMD as an operation is the model's reading (log 6, DESIGN CHOICE). -/
def Obligations.StepRunsFetchedOperation : Prop :=
  (∀ (s : State) (p : PortRequest) (rest : List PortRequest),
      s.phase = .idle → s.requests = p :: rest → step s = exec (decodeRequest p.word) s) ∧
    (∀ (s : State) (i : Instr),
      s.phase = .start → decodeFrame s.cmd = .ok i → step s = exec i s) ∧
    (∀ (s : State) (nbits w : Nat) (i : Instr), decodeTableWord nbits w = some i →
      step (s.withFetchWord nbits w) = exec i (s.withFetchWord nbits w))

/-- Words written out from the spec's encodings decode to the operations they stand for (R62, R64,
R94, R101, R102, R109). -/
def Obligations.SpecWordsDecode : Prop :=
  decodeRequest 0x0008 = .config 8 ∧ decodeRequest 0x4103 = .readraw 3 .singleEnded ∧
    decodeRequest 0x4003 = .readraw 3 .differential ∧
    decodeRequest 0x8103 = .read 3 .singleEnded ∧
    decodeRequest 0x8000 = .read 0 .differential ∧ decodeRequest 0xC001 = .readv 1 ∧
    decodeRequest 0xC101 = .readv 1 ∧
    decodeTableWord 24 0x018000 = some (.sglCh0 0) ∧
    decodeTableWord 24 0x01F000 = some (.sglCh7 0) ∧
    decodeTableWord 24 0x010000 = some (.diffCh0 0) ∧
    decodeTableWord 24 0x017000 = some (.diffCh7 0)

/-- Decoding the encoding of any operation gives it back, with every operand at every value (R51,
R52, R54, R64). -/
def Obligations.DecodeEncodeAgree : Prop :=
  ∀ i : Instr, decode (encode i) = .ok i

/-- The command built for a mode and a channel is the formula's word and decodes to its own frame
(R54, R55, R77). -/
def Obligations.BuiltCommandIsItsFrame : Prop :=
  ∀ (m : Mode) (c : Channel),
    frameByte0 (cmdFrame m c) = 0x01 ∧
      (frameByte1 (cmdFrame m c)).toNat = 128 * m.bit.toNat + 16 * c.toNat ∧
      frameByte2 (cmdFrame m c) = 0x00 ∧
      cmdFrame m c = 0x010000 ||| (m.bit.setWidth 24 <<< 15) ||| (c.setWidth 24 <<< 12) ∧
      decodeFrame (cmdFrame m c) = .ok (frameInstr m c 0x00)

/-- A 24-bit word is a command frame exactly when byte 0 is 0x01 and the low nibble of byte 1 is 0
(R54, R59). -/
def Obligations.NonFramesAreRejectedByName : Prop :=
  ∀ f : Frame,
    (frameByte0 f ≠ 0x01 → decodeFrame f = .error .startByte) ∧
      (frameByte0 f = 0x01 → f.extractLsb' 8 4 ≠ 0 → decodeFrame f = .error .zeroNibble) ∧
      (frameByte0 f = 0x01 → f.extractLsb' 8 4 = 0 →
        ∃ i : Instr, decodeFrame f = .ok i ∧ encode i = .frame f)

/-- The step on a request depends on no ignored bit of it (R51, R57, R87). -/
def Obligations.IgnoredRequestBitsDoNotMatter : Prop :=
  ∀ (s : State) (p q : PortRequest) (rest : List PortRequest),
    s.phase = .idle → reqOp p.word = reqOp q.word → reqArg p.word = reqArg q.word →
    (reqOp p.word = 0b01 ∨ reqOp p.word = 0b10 → reqMode p.word = reqMode q.word) →
    (reqOp p.word = 0b00 → p.vref = q.vref) →
    step { s with requests := p :: rest } = step { s with requests := q :: rest }

/-- CONFIG with a legal model on an unconfigured idle block latches the configuration (R13, R14,
R15, R70). -/
def Obligations.ConfigLatchesLegalModel : Prop :=
  ∀ (s : State) (p : PortRequest) (rest : List PortRequest) (m : Byte),
    s.phase = .idle → s.requests = p :: rest → s.configured = false →
    (m = 2 ∨ m = 4 ∨ m = 8) →
    exec (.config m) s = .next
      { s with
        requests := rest
        trace := s.trace ++ [.accept (.config m p.vref)]
        op := 0b00
        model := m.extractLsb' 0 4
        vref := p.vref
        configured := true
        status := 0
        phase := .respond }

/-- CONFIG with an illegal model on an unconfigured idle block raises InvalidModel and changes no
setting (R70, R113, R117). -/
def Obligations.ConfigRefusesIllegalModel : Prop :=
  ∀ (s : State) (p : PortRequest) (rest : List PortRequest) (m : Byte),
    s.phase = .idle → s.requests = p :: rest → s.configured = false →
    m ≠ 2 → m ≠ 4 → m ≠ 8 →
    exec (.config m) s = .next
      { s with
        requests := rest
        trace := s.trace ++ [.accept (.config m p.vref)]
        op := 0b00
        status := 1
        phase := .respond }

/-- CONFIG on a configured idle block raises AlreadyConfigured, whatever the model (R70, R72, R116,
R118). -/
def Obligations.ConfigRefusedWhenConfigured : Prop :=
  ∀ (s : State) (p : PortRequest) (rest : List PortRequest) (m : Byte),
    s.phase = .idle → s.requests = p :: rest → s.configured = true →
    exec (.config m) s = .next
      { s with
        requests := rest
        trace := s.trace ++ [.accept (.config m p.vref)]
        op := 0b00
        status := 5
        phase := .respond }

/-- From unconfigured, CONFIG succeeds exactly for the models 2, 4 and 8 (R71). -/
def Obligations.ModelLegalExactlyTwoFourEight : Prop :=
  ∀ (s : State) (p : PortRequest) (rest : List PortRequest) (m : Byte),
    s.phase = .idle → s.requests = p :: rest → s.configured = false →
    ∃ t : State, exec (.config m) s = .next t ∧
      (m.toNat = 2 ∨ m.toNat = 4 ∨ m.toNat = 8 → t.configured = true ∧ t.status = 0) ∧
      (¬(m.toNat = 2 ∨ m.toNat = 4 ∨ m.toNat = 8) → t.configured = false ∧ t.status = 1)

/-- Frame of CONFIG: what it leaves unchanged in every form (R70, R73). -/
def Obligations.ConfigFrameUnchanged : Prop :=
  ∀ (m : Byte) (s t : State), exec (.config m) s = .next t →
    t.cmd = s.cmd ∧ t.rsp = s.rsp ∧ t.csN = s.csN ∧ t.answers = s.answers ∧
      t.abandoned = s.abandoned ∧
      s.trace <+: t.trace ∧ (s.configured = true → t.configured = true)

/-- A read of a channel below MODEL is accepted: its command is built and the sequencer goes to
SELECT (R75, R76, R77, R85, R86, R87). -/
def Obligations.ValidReadBuildsItsCommand : Prop :=
  ∀ (s : State) (p : PortRequest) (rest : List PortRequest) (c : Byte) (m : Mode),
    s.phase = .idle → s.requests = p :: rest → s.configured = true → c.toNat < s.model.toNat →
    exec (.readraw c m) s = .next
      { s with
        requests := rest
        trace := s.trace ++ [.accept (.readRaw c m)]
        op := 0b01
        cmd := cmdFrame m (c.extractLsb' 0 3)
        status := 0
        phase := .select } ∧
    exec (.read c m) s = .next
      { s with
        requests := rest
        trace := s.trace ++ [.accept (.read c m)]
        op := 0b10
        cmd := cmdFrame m (c.extractLsb' 0 3)
        status := 0
        phase := .select } ∧
    exec (.readv c) s = .next
      { s with
        requests := rest
        trace := s.trace ++ [.accept (.readV c)]
        op := 0b11
        cmd := cmdFrame .singleEnded (c.extractLsb' 0 3)
        status := 0
        phase := .select }

/-- A read on an unconfigured block raises NotConfigured, whatever the channel, and touches nothing
else (R13, R75, R116, R118). -/
def Obligations.ReadRefusedUnconfigured : Prop :=
  ∀ (s : State) (p : PortRequest) (rest : List PortRequest) (c : Byte) (m : Mode),
    s.phase = .idle → s.requests = p :: rest → s.configured = false →
    exec (.readraw c m) s = .next
      { s with
        requests := rest
        trace := s.trace ++ [.accept (.readRaw c m)]
        op := 0b01
        status := 4
        phase := .respond } ∧
    exec (.read c m) s = .next
      { s with
        requests := rest
        trace := s.trace ++ [.accept (.read c m)]
        op := 0b10
        status := 4
        phase := .respond } ∧
    exec (.readv c) s = .next
      { s with
        requests := rest
        trace := s.trace ++ [.accept (.readV c)]
        op := 0b11
        status := 4
        phase := .respond }

/-- A read of a channel not below MODEL raises ChannelOutOfRange before chip-select is touched (R58,
R75, R76, R114, R118, R136). -/
def Obligations.ReadRefusedOutOfRange : Prop :=
  ∀ (s : State) (p : PortRequest) (rest : List PortRequest) (c : Byte) (m : Mode),
    s.phase = .idle → s.requests = p :: rest → s.configured = true → s.model.toNat ≤ c.toNat →
    exec (.readraw c m) s = .next
      { s with
        requests := rest
        trace := s.trace ++ [.accept (.readRaw c m)]
        op := 0b01
        status := 2
        phase := .respond } ∧
    exec (.read c m) s = .next
      { s with
        requests := rest
        trace := s.trace ++ [.accept (.read c m)]
        op := 0b10
        status := 2
        phase := .respond } ∧
    exec (.readv c) s = .next
      { s with
        requests := rest
        trace := s.trace ++ [.accept (.readV c)]
        op := 0b11
        status := 2
        phase := .respond }

/-- READRAW is accepted, converts once, and delivers the received frame and its decoded code (R85,
R75, R78, R79, R80, R82, R83). -/
def Obligations.ReadrawDeliversFrameAndCode : Prop :=
  ∀ (s : State) (p : PortRequest) (rest : List PortRequest) (c : Byte) (m : Mode) (f : Frame)
      (answers : List Answer),
    AtRest s → s.requests = p :: rest → s.configured = true → c.toNat < s.model.toNat →
    s.answers = .ok f :: answers →
    ∃ t : State, exec (.readraw c m) s = .next t ∧ t.phase = .select ∧ t.op = 0b01 ∧
      t.cmd = cmdFrame m (c.extractLsb' 0 3) ∧
      core.run 5 t = .next
        { s with
          requests := rest
          answers := answers
          trace := s.trace ++
            [.accept (.readRaw c m), .csLow, .xferStart (cmdFrame m (c.extractLsb' 0 3)), .xferOk f,
              .csHigh, .respond ⟨0, f, dec10 f, .zero⟩] }

/-- READ is accepted, converts once, and delivers the decoded code only (R86, R75, R78, R79, R80,
R82, R83). -/
def Obligations.ReadDeliversCode : Prop :=
  ∀ (s : State) (p : PortRequest) (rest : List PortRequest) (c : Byte) (m : Mode) (f : Frame)
      (answers : List Answer),
    AtRest s → s.requests = p :: rest → s.configured = true → c.toNat < s.model.toNat →
    s.answers = .ok f :: answers →
    ∃ t : State, exec (.read c m) s = .next t ∧ t.phase = .select ∧ t.op = 0b10 ∧
      t.cmd = cmdFrame m (c.extractLsb' 0 3) ∧
      core.run 5 t = .next
        { s with
          requests := rest
          answers := answers
          trace := s.trace ++
            [.accept (.read c m), .csLow, .xferStart (cmdFrame m (c.extractLsb' 0 3)), .xferOk f,
              .csHigh, .respond ⟨0, 0, dec10 f, .zero⟩] }

/-- READV is accepted, converts once single-ended, and delivers the voltage only (R87, R75, R78,
R79, R80, R82, R83). -/
def Obligations.ReadvDeliversVoltage : Prop :=
  ∀ (s : State) (p : PortRequest) (rest : List PortRequest) (c : Byte) (f : Frame)
      (answers : List Answer),
    AtRest s → s.requests = p :: rest → s.configured = true → c.toNat < s.model.toNat →
    s.answers = .ok f :: answers →
    ∃ t : State, exec (.readv c) s = .next t ∧ t.phase = .select ∧ t.op = 0b11 ∧
      t.cmd = cmdFrame .singleEnded (c.extractLsb' 0 3) ∧
      core.run 5 t = .next
        { s with
          requests := rest
          answers := answers
          trace := s.trace ++
            [.accept (.readV c), .csLow, .xferStart (cmdFrame .singleEnded (c.extractLsb' 0 3)), .xferOk f,
              .csHigh, .respond ⟨0, 0, 0, vscale (dec10 f) s.vref⟩] }

/-- A transport error: chip-select is released, then the code alone is delivered (R81, R82, R83,
R92, R115, R117, R119). -/
def Obligations.TransportErrorReleasesThenAnswers : Prop :=
  ∀ (s : State) (p : PortRequest) (rest : List PortRequest) (c : Byte) (m : Mode)
      (answers : List Answer),
    AtRest s → s.requests = p :: rest → p.decoded.target = some (c, m) →
    s.configured = true → c.toNat < s.model.toNat → s.answers = .err :: answers →
    core.run 6 s = .next
      { s with
        requests := rest
        answers := answers
        trace := s.trace ++
          [.accept p.decoded, .csLow, .xferStart (cmdFrame m (c.extractLsb' 0 3)), .xferErr,
            .csHigh, .respond ⟨3, 0, 0, .zero⟩] }

/-- An operation refused at acceptance answers its code in two steps, with no bus activity (R73,
R90, R114, R116, R117, R119, R120). -/
def Obligations.RefusedOperationAnswersAtOnce : Prop :=
  ∀ (s : State) (p : PortRequest) (rest : List PortRequest) (e : Err),
    AtRest s → s.requests = p :: rest →
    ((∃ (m : Byte) (v : Config.VoltT), p.decoded = .config m v ∧
        configError s.configured m = some e) ∨
      (∃ (c : Byte) (m : Mode), p.decoded.target = some (c, m) ∧
        readError s.configured s.model c = some e)) →
    core.run 2 s = .next
      { s with
        requests := rest
        trace := s.trace ++ [.accept p.decoded, .respond ⟨errorCode e, 0, 0, .zero⟩] }

/-- The checks at acceptance, in the fixed order, and the codes of their errors (R76, R112, R113,
R114, R116, R118). -/
def Obligations.ChecksAreMadeInOrder : Prop :=
  (∀ (b : Bool) (m : Byte), (configError b m).map errorCode =
      if b = true then some 5
      else if m.toNat = 2 ∨ m.toNat = 4 ∨ m.toNat = 8 then none
      else some 1) ∧
    (∀ (b : Bool) (model : BitVec 4) (c : Byte), (readError b model c).map errorCode =
      if b = false then some 4
      else if c.toNat < model.toNat then none
      else some 2) ∧
    errorCode .transportError = 3

/-- Frame of READRAW, READ and READV: what their acceptance leaves unchanged in every form (R75,
R76, R91). -/
def Obligations.ReadFrameUnchanged : Prop :=
  ∀ (i : Instr) (c : Byte) (m : Mode) (s t : State),
    (i = .readraw c m ∨ i = .read c m ∨ i = .readv c) → exec i s = .next t →
    t.settings = s.settings ∧ t.rsp = s.rsp ∧ t.csN = s.csN ∧ t.answers = s.answers ∧
      t.abandoned = s.abandoned ∧
      s.trace <+: t.trace ∧ (t.phase ≠ .select → t.cmd = s.cmd)

/-- SGL_CH0 to SGL_CH7: in START the frame is handed to the transport, whole and once (R79, R93,
R94, R95, R96, R97, R98, R99, R100, R101). That a command frame is an
operation the block executes, the frame of the operation being sent whatever CMD holds, is the model's
reading (log 6, DESIGN CHOICE), and so is its free pad byte, of which the block itself sends only 0x00
(log 12, DESIGN CHOICE). -/
def Obligations.SingleEndedFramesAreSent : Prop :=
  ∀ (s : State) (p : Byte), s.phase = .start →
    exec (.sglCh0 p) s =
        .next { s with trace := s.trace ++ [.xferStart (0x0180#16 ++ p)], phase := .wait } ∧
      exec (.sglCh1 p) s =
        .next { s with trace := s.trace ++ [.xferStart (0x0190#16 ++ p)], phase := .wait } ∧
      exec (.sglCh2 p) s =
        .next { s with trace := s.trace ++ [.xferStart (0x01A0#16 ++ p)], phase := .wait } ∧
      exec (.sglCh3 p) s =
        .next { s with trace := s.trace ++ [.xferStart (0x01B0#16 ++ p)], phase := .wait } ∧
      exec (.sglCh4 p) s =
        .next { s with trace := s.trace ++ [.xferStart (0x01C0#16 ++ p)], phase := .wait } ∧
      exec (.sglCh5 p) s =
        .next { s with trace := s.trace ++ [.xferStart (0x01D0#16 ++ p)], phase := .wait } ∧
      exec (.sglCh6 p) s =
        .next { s with trace := s.trace ++ [.xferStart (0x01E0#16 ++ p)], phase := .wait } ∧
      exec (.sglCh7 p) s =
        .next { s with trace := s.trace ++ [.xferStart (0x01F0#16 ++ p)], phase := .wait }

/-- DIFF_CH0 to DIFF_CH7: in START the frame is handed to the transport, whole and once (R79, R93,
R102, R103, R104, R105, R106, R107, R108, R109). That a command frame is an
operation the block executes, the frame of the operation being sent whatever CMD holds, is the model's
reading (log 6, DESIGN CHOICE), and so is its free pad byte, of which the block itself sends only 0x00
(log 12, DESIGN CHOICE). -/
def Obligations.DifferentialFramesAreSent : Prop :=
  ∀ (s : State) (p : Byte), s.phase = .start →
    exec (.diffCh0 p) s =
        .next { s with trace := s.trace ++ [.xferStart (0x0100#16 ++ p)], phase := .wait } ∧
      exec (.diffCh1 p) s =
        .next { s with trace := s.trace ++ [.xferStart (0x0110#16 ++ p)], phase := .wait } ∧
      exec (.diffCh2 p) s =
        .next { s with trace := s.trace ++ [.xferStart (0x0120#16 ++ p)], phase := .wait } ∧
      exec (.diffCh3 p) s =
        .next { s with trace := s.trace ++ [.xferStart (0x0130#16 ++ p)], phase := .wait } ∧
      exec (.diffCh4 p) s =
        .next { s with trace := s.trace ++ [.xferStart (0x0140#16 ++ p)], phase := .wait } ∧
      exec (.diffCh5 p) s =
        .next { s with trace := s.trace ++ [.xferStart (0x0150#16 ++ p)], phase := .wait } ∧
      exec (.diffCh6 p) s =
        .next { s with trace := s.trace ++ [.xferStart (0x0160#16 ++ p)], phase := .wait } ∧
      exec (.diffCh7 p) s =
        .next { s with trace := s.trace ++ [.xferStart (0x0170#16 ++ p)], phase := .wait }

/-- A command frame is sent in START and nowhere else; it changes only PHASE and TRACE (R22, R79,
R93). That a frame outside START has no effect, where the spec gives it no step, is the model's
choice (log 7, DESIGN CHOICE). -/
def Obligations.FramesSentOnlyInStart : Prop :=
  ∀ (i : Instr) (f : Frame) (s t : State), encode i = .frame f → exec i s = .next t →
    (s.phase ≠ .start → t = s) ∧
      t.settings = s.settings ∧ t.op = s.op ∧ t.status = s.status ∧ t.cmd = s.cmd ∧
      t.rsp = s.rsp ∧ t.csN = s.csN ∧ t.requests = s.requests ∧ t.answers = s.answers ∧
      t.abandoned = s.abandoned

/-- In SELECT the step drives chip-select low and goes to START (R78). -/
def Obligations.SelectStepDrivesChipSelectLow : Prop :=
  ∀ s : State, s.phase = .select →
    step s = .next
      { s with csN := false, trace := s.trace ++ [.csLow], phase := .start }

/-- In START the step hands CMD to the transport, whole, and goes to WAIT (R22, R79). -/
def Obligations.StartStepSendsCommand : Prop :=
  ∀ s : State, s.phase = .start →
    Ports.xferStart s = true ∧ Ports.xferOut s = s.cmd ∧
      step s = .next { s with trace := s.trace ++ [.xferStart s.cmd], phase := .wait }

/-- In WAIT the step latches the received bytes, or raises TransportError, or is not enabled (R80,
R81, R112, R115, R137). That no enabled step is the fault awaitingTransport of the step function is
the model's form (log 5, DESIGN CHOICE). -/
def Obligations.WaitStepTakesTheAnswer : Prop :=
  ∀ s : State, s.phase = .wait →
    (∀ (f : Frame) (rest : List Answer), s.answers = .ok f :: rest →
        step s = .next
          { s with
            rsp := f
            trace := s.trace ++ [.xferOk f]
            phase := .release
            answers := rest }) ∧
      (∀ rest : List Answer, s.answers = .err :: rest →
        step s = .next
          { s with
            status := 3
            trace := s.trace ++ [.xferErr]
            phase := .release
            answers := rest }) ∧
      (s.answers = [] → step s = .fault .awaitingTransport)

/-- In RELEASE the step drives chip-select high, whatever STATUS is, and WAIT leads only to RELEASE
(R82). -/
def Obligations.ReleaseStepDrivesChipSelectHigh : Prop :=
  (∀ s : State, s.phase = .release →
      step s = .next { s with csN := true, trace := s.trace ++ [.csHigh], phase := .respond }) ∧
    (∀ s t : State, s.phase = .wait → step s = .next t → t.phase = .release)

/-- In RESPOND the step delivers the response table's row and clears the exchange-local registers
(R83). -/
def Obligations.RespondStepDeliversAndClears : Prop :=
  (∀ s : State, Ports.rspValid s = true ↔ s.phase = .respond) ∧
    ∀ s : State, s.phase = .respond →
      (Ports.rsp s).status = s.status ∧
        (s.status = 0 → s.op = 0b01 → Ports.rsp s = ⟨0, s.rsp, dec10 s.rsp, .zero⟩) ∧
        (s.status = 0 → s.op = 0b10 → Ports.rsp s = ⟨0, 0, dec10 s.rsp, .zero⟩) ∧
        (s.status = 0 → s.op = 0b11 → Ports.rsp s = ⟨0, 0, 0, vscale (dec10 s.rsp) s.vref⟩) ∧
        (s.status = 0 → s.op = 0b00 → Ports.rsp s = ⟨0, 0, 0, .zero⟩) ∧
        (s.status ≠ 0 → Ports.rsp s = ⟨s.status, 0, 0, .zero⟩) ∧
        step s = .next
          { s with
            trace := s.trace ++ [.respond (Ports.rsp s)]
            op := 0
            status := 0
            cmd := 0
            rsp := 0
            phase := .idle }

/-- In IDLE with no request on the port no step of the block is enabled (R16, R20). That a state
with no enabled step is a fault of the step function is the model's form (log 5, DESIGN CHOICE). -/
def Obligations.IdleWithoutRequestWaits : Prop :=
  ∀ s : State, s.phase = .idle → s.requests = [] → step s = .fault .awaitingRequest

/-- The output ports are active in their own phase only (R20, R21, R22). That xfer_out is 0 outside
START, and the response fields 0 outside RESPOND, is read from the spec by inference (log 11,
DEDUCED). -/
def Obligations.PortsFollowThePhase : Prop :=
  ∀ s : State,
    (Ports.reqReady s = true ↔ s.phase = .idle) ∧
      (Ports.xferStart s = true ↔ s.phase = .start) ∧
      (s.phase = .start → Ports.xferOut s = s.cmd) ∧
      (s.phase ≠ .start → Ports.xferOut s = 0) ∧
      (s.phase ≠ .respond → Ports.rspValid s = false ∧ Ports.rsp s = ⟨0, 0, 0, .zero⟩)

/-- dec10 is the low ten bits of the frame, and reaches every code from 0 to 1023 (R35, R56, R84).
-/
def Obligations.DecodeTakesLowTenBits : Prop :=
  (∀ f : Frame, dec10 f = f.extractLsb' 0 10 ∧
      (dec10 f).toNat = 256 * ((frameByte1 f).toNat % 4) + (frameByte2 f).toNat) ∧
    (∀ v : Raw, ∃ f : Frame, dec10 f = v)

/-- READ and READV deliver the same response whatever the ignored bits of the received frame (R56,
R84, R86, R87). -/
def Obligations.IgnoredResponseBitsDoNotMatter : Prop :=
  ∀ (s : State) (p : PortRequest) (rest : List PortRequest) (c : Byte) (m : Mode) (f g : Frame)
      (answers : List Answer),
    AtRest s → s.requests = p :: rest →
    (p.decoded.op = 0b10 ∨ p.decoded.op = 0b11) → p.decoded.target = some (c, m) →
    s.configured = true → c.toNat < s.model.toNat →
    f.extractLsb' 0 10 = g.extractLsb' 0 10 →
    ∃ u v : State,
      core.run 6 { s with answers := .ok f :: answers } = .next u ∧
        core.run 6 { s with answers := .ok g :: answers } = .next v ∧
        u.trace.getLast? = v.trace.getLast?

/-- vscale is raw times VREF over 1024 in the build's number type, multiply then divide; in the exact
rationals it is exact and never reaches a positive VREF (R8, R87, R88). Nothing is assumed of the
build's number type but the carrier of its values (log 2, DESIGN CHOICE). -/
def Obligations.VoltageScaleIsLinear : Prop :=
  (∀ (raw : Raw) (v : Config.VoltT),
      vscale raw v = Config.numerics.divide
        (Config.numerics.multiply (Config.numerics.literal raw.toNat) v)
        (Config.numerics.literal 1024)) ∧
    (∀ (raw : Raw) (q : Rat), ∃ w : Rat, vscaleIn exactNumerics raw (.number q) = .number w ∧
      w * 1024 = raw.toNat * q ∧ (0 < q → 0 ≤ w ∧ w < q)) ∧
    vscaleIn exactNumerics 512 (.number (33 / 10)) = .number (33 / 20) ∧
    vscaleIn exactNumerics 767 (.number (33 / 10)) = .number (25311 / 10240) ∧
    vscaleIn exactNumerics 1023 (.number (33 / 10)) = .number (33759 / 10240)

/-- READ is READRAW reduced to the code, READV is single-ended READ scaled to a voltage (R63, R91).
-/
def Obligations.DerivedReadsReduceReadraw : Prop :=
  ∀ (S : Settings) (c : Byte) (m : Mode) (a : Option Answer),
    (call S (.read c m) a).map CallResult.response =
        (call S (.readRaw c m) a).map (fun r => { r.response with frame := 0 }) ∧
      (call S (.readV c) a).map CallResult.response =
        (call S (.read c .singleEnded) a).map (fun r =>
          if r.response.status = 0 then
            { r.response with raw := 0, volt := vscale r.response.raw S.vref }
          else r.response) ∧
      (call S (.read c m) a).map (fun r => (r.settings, r.events.tail.dropLast)) =
        (call S (.readRaw c m) a).map (fun r => (r.settings, r.events.tail.dropLast)) ∧
      (call S (.readV c) a).map (fun r => (r.settings, r.events.tail.dropLast)) =
        (call S (.read c .singleEnded) a).map (fun r => (r.settings, r.events.tail.dropLast))

/-- Where each bit of an exchange stands on the wire (R37, R55, R84). -/
def Obligations.WireBitsFollowTheFrame : Prop :=
  (∀ (m : Mode) (c : Channel) (t : Nat), t < 24 → Wire.bitAt (cmdFrame m c) t =
      (t == 7 || (t == 8 && m.bit == 1) || (t == 9 && c.getLsbD 2) || (t == 10 && c.getLsbD 1) ||
        (t == 11 && c.getLsbD 0))) ∧
    (∀ (f : Frame) (t : Nat), 14 ≤ t → t < 24 →
      (dec10 f).getLsbD (9 - (t - 14)) = Wire.bitAt f t)

/-- The pair table, the channels each model admits, and the frames it can send (R31, R32, R42,
R110). -/
def Obligations.ChannelsAndPairsByModel : Prop :=
  ChannelSpace.channels.map (fun c => (ChannelSpace.positivePin c, ChannelSpace.negativePin c)) =
      [(0, 1), (1, 0), (2, 3), (3, 2), (4, 5), (5, 4), (6, 7), (7, 6)] ∧
    ChannelSpace.usable 2 = [0, 1] ∧ ChannelSpace.usable 4 = [0, 1, 2, 3] ∧
    ChannelSpace.usable 8 = ChannelSpace.channels ∧
    (∀ m ∈ [2#4, 4#4, 8#4], ∀ c ∈ ChannelSpace.usable m,
      ChannelSpace.negativePin c ∈ ChannelSpace.usable m) ∧
    ChannelSpace.sendable 2 = [0x018000, 0x019000, 0x010000, 0x011000] ∧
    (ChannelSpace.sendable 4).length = 8 ∧ (ChannelSpace.sendable 8).length = 16
end

