-- ==== Sys2Proof/Laws/Decode.lean ====
section
/-! SUPPORT. Decoding and encoding of command frames, bit by bit, and what a decoded frame does. -/

namespace Sys2Proof

/-- A frame is the concatenation of the fields of `30_encoding.md` R54. -/
theorem frame_eq_fields (f : Frame) :
    f = f.extractLsb' 16 8 ++ f.extractLsb' 15 1 ++ f.extractLsb' 12 3 ++ f.extractLsb' 8 4
      ++ f.extractLsb' 0 8 := by
  apply BitVec.eq_of_getLsbD_eq
  intro i hi
  simp only [BitVec.getLsbD_append, BitVec.getLsbD_extractLsb']
  interval_cases i <;> simp

/-- The pad byte goes below a constant whose low byte is 0. -/
theorem withPad_append (hi : BitVec 16) (p : Byte) : withPad (hi ++ 0#8) p = hi ++ p := by
  unfold withPad
  apply BitVec.eq_of_getLsbD_eq
  intro i h
  rw [BitVec.getLsbD_or, BitVec.getLsbD_append, BitVec.getLsbD_append, BitVec.getLsbD_setWidth]
  by_cases h8 : i < 8
  · simp [h8, h]
  · simp [h8, BitVec.getLsbD_of_ge p i (by omega)]

/-- The constants of the opcode table are the fields they stand for. -/
theorem encode_frameInstr (m : Mode) (c : Channel) (p : Byte) :
    encode (frameInstr m c p) = .frame (0x01#8 ++ m.bit ++ c ++ 0#4 ++ p) := by
  have table : ∀ (m : Mode) (c : Channel), ∃ K : BitVec 16,
      K = 0x01#8 ++ m.bit ++ c ++ 0#4 ∧
        ∀ p, encode (frameInstr m c p) = .frame (withPad (K ++ 0#8) p) := by
    intro m c
    refine ⟨_, rfl, fun p => ?_⟩
    have : c = 0 ∨ c = 1 ∨ c = 2 ∨ c = 3 ∨ c = 4 ∨ c = 5 ∨ c = 6 ∨ c = 7 := by
      revert c; decide
    cases m <;> rcases this with rfl | rfl | rfl | rfl | rfl | rfl | rfl | rfl <;> rfl
  obtain ⟨K, rfl, h⟩ := table m c
  rw [h, withPad_append]

/-- A word that decodes to a command frame is that frame's encoding: no bit of it is dropped. -/
theorem encode_of_decodeFrame {f : Frame} {i : Instr} (h : decodeFrame f = .ok i) :
    encode i = .frame f := by
  unfold decodeFrame at h
  split at h
  · cases h
  · rename_i h0
    split at h
    · cases h
    · rename_i h1
      cases h
      have hs : (frameMode f).bit = f.extractLsb' 15 1 := by
        unfold frameMode modeOfBit
        apply BitVec.eq_of_getLsbD_eq
        intro i hi
        obtain rfl : i = 0 := by omega
        rw [BitVec.getLsbD_extractLsb']
        cases f.getLsbD 15 <;> simp [Mode.bit, -BitVec.getLsbD_eq_getElem]
      have hf := frame_eq_fields f
      rw [show f.extractLsb' 16 8 = 0x01#8 from not_not.mp h0,
        show f.extractLsb' 8 4 = 0#4 from not_not.mp h1, ← hs] at hf
      rw [encode_frameInstr]
      exact congrArg Encoded.frame hf.symm

namespace Machine

/-- An operation encoded as a command frame sends that frame. -/
theorem exec_of_encode_frame {i : Instr} {f : Frame} (h : encode i = .frame f) (s : State) :
    exec i s = sendFrame f s := by
  cases i <;> cases h <;> rfl

end Machine

end Sys2Proof
end

