-- ==== Sys2Proof/Laws/State.lean ====
section
/-! SUPPORT. The fields of a state after the shared updates `emit` and `raise`. -/

namespace Sys2Proof.Machine

@[simp] theorem emit_configured (e : Event) (s : State) : (emit e s).configured = s.configured := rfl
@[simp] theorem emit_model (e : Event) (s : State) : (emit e s).model = s.model := rfl
@[simp] theorem emit_vref (e : Event) (s : State) : (emit e s).vref = s.vref := rfl
@[simp] theorem emit_phase (e : Event) (s : State) : (emit e s).phase = s.phase := rfl
@[simp] theorem emit_op (e : Event) (s : State) : (emit e s).op = s.op := rfl
@[simp] theorem emit_status (e : Event) (s : State) : (emit e s).status = s.status := rfl
@[simp] theorem emit_cmd (e : Event) (s : State) : (emit e s).cmd = s.cmd := rfl
@[simp] theorem emit_rsp (e : Event) (s : State) : (emit e s).rsp = s.rsp := rfl
@[simp] theorem emit_csN (e : Event) (s : State) : (emit e s).csN = s.csN := rfl
@[simp] theorem emit_trace (e : Event) (s : State) : (emit e s).trace = s.trace ++ [e] := rfl
@[simp] theorem emit_requests (e : Event) (s : State) : (emit e s).requests = s.requests := rfl
@[simp] theorem emit_answers (e : Event) (s : State) : (emit e s).answers = s.answers := rfl
@[simp] theorem emit_abandoned (e : Event) (s : State) : (emit e s).abandoned = s.abandoned := rfl

@[simp] theorem raise_configured (e : Err) (s : State) : (raise e s).configured = s.configured := rfl
@[simp] theorem raise_model (e : Err) (s : State) : (raise e s).model = s.model := rfl
@[simp] theorem raise_vref (e : Err) (s : State) : (raise e s).vref = s.vref := rfl
@[simp] theorem raise_phase (e : Err) (s : State) : (raise e s).phase = errorPhase e := rfl
@[simp] theorem raise_op (e : Err) (s : State) : (raise e s).op = s.op := rfl
@[simp] theorem raise_status (e : Err) (s : State) : (raise e s).status = errorCode e := rfl
@[simp] theorem raise_cmd (e : Err) (s : State) : (raise e s).cmd = s.cmd := rfl
@[simp] theorem raise_rsp (e : Err) (s : State) : (raise e s).rsp = s.rsp := rfl
@[simp] theorem raise_csN (e : Err) (s : State) : (raise e s).csN = s.csN := rfl
@[simp] theorem raise_trace (e : Err) (s : State) : (raise e s).trace = s.trace := rfl
@[simp] theorem raise_requests (e : Err) (s : State) : (raise e s).requests = s.requests := rfl
@[simp] theorem raise_answers (e : Err) (s : State) : (raise e s).answers = s.answers := rfl
@[simp] theorem raise_abandoned (e : Err) (s : State) : (raise e s).abandoned = s.abandoned := rfl

end Sys2Proof.Machine
end

