-- ==== Sys2Proof/Laws/Ops.lean ====
section
/-! SUPPORT. What each shared operation can do, said once. -/

namespace Sys2Proof.Machine

/-- Accepting and taking nothing are all that `whenAccepted` can do. -/
theorem whenAccepted_cases {s t : State} {k : PortRequest → State → State}
    (h : whenAccepted s k = .next t) :
    (∃ p rest, s.phase = .idle ∧ s.requests = p :: rest ∧ t = k p { s with requests := rest }) ∨
      ((s.phase ≠ .idle ∨ s.requests = []) ∧ t = s) := by
  unfold whenAccepted at h
  split at h
  · exact .inr ⟨.inr ‹_›, by cases h; rfl⟩
  · split at h
    · exact .inl ⟨_, _, ‹_›, ‹_›, by cases h; rfl⟩
    · exact .inr ⟨.inl ‹_›, by cases h; rfl⟩

/-- An idle block with a request on the port takes it. -/
theorem whenAccepted_idle {s : State} {p : PortRequest} {rest : List PortRequest}
    (k : PortRequest → State → State) (hi : s.phase = .idle) (hr : s.requests = p :: rest) :
    whenAccepted s k = .next (k p { s with requests := rest }) := by
  simp [whenAccepted, hi, hr]

/-- A busy block takes nothing (`10_state.md` R20). -/
theorem whenAccepted_busy {s : State} (k : PortRequest → State → State) (hb : s.phase ≠ .idle) :
    whenAccepted s k = .next s := by
  unfold whenAccepted
  split <;> simp [hb]

/-- A frame is sent in `START` and nowhere else. -/
theorem sendFrame_cases {f : Frame} {s t : State} (h : sendFrame f s = .next t) :
    (s.phase = .start ∧ t = { emit (.xferStart f) s with phase := .wait }) ∨
      (s.phase ≠ .start ∧ t = s) := by
  unfold sendFrame at h
  split at h
  · exact .inl ⟨‹_›, by cases h; rfl⟩
  · exact .inr ⟨‹_›, by cases h; rfl⟩

/-- `WAIT` is left only on an answer, by WAIT-OK or by WAIT-ERR. -/
theorem waitStep_cases {s t : State} (h : waitStep s = .next t) :
    (∃ f rest, s.answers = .ok f :: rest ∧
        t = { emit (.xferOk f) s with rsp := f, phase := .release, answers := rest }) ∨
      (∃ rest, s.answers = .err :: rest ∧
        t = raise .transportError (emit .xferErr { s with answers := rest })) := by
  unfold waitStep at h
  split at h
  · cases h
  · exact .inl ⟨_, _, ‹_›, by cases h; rfl⟩
  · exact .inr ⟨_, ‹_›, by cases h; rfl⟩

/-- Acceptance of `CONFIG` raises the error its checks find, or latches the configuration. -/
theorem acceptConfig_cases (m : Byte) (v : Config.VoltT) (s : State) :
    (∃ e, configError s.configured m = some e ∧
        acceptConfig m v s = raise e (emit (.accept (.config m v)) { s with op := 0 })) ∨
      (configError s.configured m = none ∧
        acceptConfig m v s =
          { emit (.accept (.config m v)) s with
            op := 0, model := m.setWidth 4, vref := v, configured := true, status := 0,
            phase := .respond }) := by
  unfold acceptConfig
  cases h : configError s.configured m with
  | some e => exact .inl ⟨e, rfl, rfl⟩
  | none => exact .inr ⟨rfl, rfl⟩

/-- Acceptance of a read raises the error its checks find, or builds the command. -/
theorem acceptRead_cases (r : Request) (c : Byte) (m : Mode) (s : State) :
    (∃ e, readError s.configured s.model c = some e ∧
        acceptRead r c m s = raise e (emit (.accept r) { s with op := r.op })) ∨
      (readError s.configured s.model c = none ∧
        acceptRead r c m s =
          { emit (.accept r) s with
            op := r.op, cmd := cmdFrame m (c.setWidth 3), status := 0, phase := .select }) := by
  unfold acceptRead
  cases h : readError s.configured s.model c with
  | some e => exact .inl ⟨e, rfl, rfl⟩
  | none => exact .inr ⟨rfl, rfl⟩

/-- `CONFIG` is accepted exactly when unconfigured and the model is legal. -/
theorem configError_none {b : Bool} {m : Byte} :
    configError b m = none ↔ b = false ∧ (m = 2 ∨ m = 4 ∨ m = 8) := by
  cases b <;> simp [configError, modelLegal]
  tauto

/-- The errors `CONFIG` can raise, each with its cause. -/
theorem configError_some {b : Bool} {m : Byte} {e : Err} (h : configError b m = some e) :
    (e = .alreadyConfigured ∧ b = true) ∨
      (e = .invalidModel ∧ b = false ∧ ¬(m = 2 ∨ m = 4 ∨ m = 8)) := by
  cases b <;> simp_all [configError, modelLegal, or_assoc]

/-- A read is accepted exactly when configured and the channel is below the model. -/
theorem readError_none {b : Bool} {model : BitVec 4} {c : Byte} :
    readError b model c = none ↔ b = true ∧ c.toNat < model.toNat := by
  cases b <;> simp [readError, BitVec.le_def, Nat.mod_eq_of_lt (show model.toNat < 256 by omega)]

/-- The errors a read can raise at acceptance, each with its cause. -/
theorem readError_some {b : Bool} {model : BitVec 4} {c : Byte} {e : Err}
    (h : readError b model c = some e) :
    (e = .notConfigured ∧ b = false) ∨
      (e = .channelOutOfRange ∧ b = true ∧ model.toNat ≤ c.toNat) := by
  cases b <;>
    simp_all [readError, BitVec.le_def, Nat.mod_eq_of_lt (show model.toNat < 256 by omega)]

end Sys2Proof.Machine
end

