-- ==== Sys2Proof/Laws/Step.lean ====
section
/-! SUPPORT. The inversion of one step: everything a step of the block can do, phase by phase. -/

namespace Sys2Proof.Machine

/-- The state after the acceptance of a decoded request. -/
def accepted (r : Request) (s : State) : State :=
  match r with
  | .config m v => acceptConfig m v s
  | .readRaw c m => acceptRead r c m s
  | .read c m => acceptRead r c m s
  | .readV c => acceptRead r c .singleEnded s

/-- In `IDLE` with a request on the port, the step accepts the decoded request. -/
theorem step_idle {s : State} {p : PortRequest} {rest : List PortRequest}
    (hi : s.phase = .idle) (hr : s.requests = p :: rest) :
    step s = .next (accepted p.decoded { s with requests := rest }) := by
  have hf : fetch s = some (decodeRequest p.word) := by simp [fetch, hi, hr]
  unfold step
  rw [hf]
  unfold decodeRequest PortRequest.decoded
  cases p.word.getLsbD 15 <;> cases p.word.getLsbD 14 <;>
    simp only [exec, execConfig, execReadraw, execRead, execReadv, whenAccepted_idle _ hi hr, accepted]

/-- In `IDLE` with no request on the port, no step is enabled. -/
theorem step_idle_nil {s : State} (hi : s.phase = .idle) (hr : s.requests = []) :
    step s = .fault .awaitingRequest := by
  simp [step, fetch, sequence, hi, hr]

theorem step_select {s : State} (h : s.phase = .select) : step s = .next (selectStep s) := by
  simp [step, fetch, sequence, h]

/-- In `START` the step sends `CMD`, whatever command frame it is. -/
theorem step_start {s : State} (h : s.phase = .start) :
    step s = .next { emit (.xferStart s.cmd) s with phase := .wait } := by
  have hsend : sendFrame s.cmd s = .next { emit (.xferStart s.cmd) s with phase := .wait } := by
    simp [sendFrame, h]
  simp only [step, fetch, h]
  cases hd : decodeFrame s.cmd with
  | error e => simpa [Except.toOption, sequence, h] using hsend
  | ok i =>
    simpa [Except.toOption, exec_of_encode_frame (encode_of_decodeFrame hd)] using hsend

theorem step_wait {s : State} (h : s.phase = .wait) : step s = waitStep s := by
  simp [step, fetch, sequence, h]

theorem step_release {s : State} (h : s.phase = .release) : step s = .next (releaseStep s) := by
  simp [step, fetch, sequence, h]

theorem step_respond {s : State} (h : s.phase = .respond) : step s = .next (respondStep s) := by
  simp [step, fetch, sequence, h]

/-- Everything a step can do. -/
theorem step_cases {s t : State} (h : step s = .next t) :
    (∃ p rest, s.phase = .idle ∧ s.requests = p :: rest ∧
        t = accepted p.decoded { s with requests := rest }) ∨
      (s.phase = .select ∧ t = selectStep s) ∨
      (s.phase = .start ∧ t = { emit (.xferStart s.cmd) s with phase := .wait }) ∨
      (∃ f rest, s.phase = .wait ∧ s.answers = .ok f :: rest ∧
        t = { emit (.xferOk f) s with rsp := f, phase := .release, answers := rest }) ∨
      (∃ rest, s.phase = .wait ∧ s.answers = .err :: rest ∧
        t = raise .transportError (emit .xferErr { s with answers := rest })) ∨
      (s.phase = .release ∧ t = releaseStep s) ∨
      (s.phase = .respond ∧ t = respondStep s) := by
  cases hp : s.phase with
  | idle =>
    cases hr : s.requests with
    | nil => rw [step_idle_nil hp hr] at h; cases h
    | cons p rest =>
      rw [step_idle hp hr] at h
      cases h
      exact .inl ⟨p, rest, rfl, rfl, rfl⟩
  | select => rw [step_select hp] at h; cases h; exact .inr (.inl ⟨rfl, rfl⟩)
  | start => rw [step_start hp] at h; cases h; exact .inr (.inr (.inl ⟨rfl, rfl⟩))
  | wait =>
    rw [step_wait hp] at h
    rcases waitStep_cases h with ⟨f, rest, ha, ht⟩ | ⟨rest, ha, ht⟩
    · exact .inr (.inr (.inr (.inl ⟨f, rest, rfl, ha, ht⟩)))
    · exact .inr (.inr (.inr (.inr (.inl ⟨rest, rfl, ha, ht⟩))))
  | release =>
    rw [step_release hp] at h; cases h
    exact .inr (.inr (.inr (.inr (.inr (.inl ⟨rfl, rfl⟩)))))
  | respond =>
    rw [step_respond hp] at h; cases h
    exact .inr (.inr (.inr (.inr (.inr (.inr ⟨rfl, rfl⟩)))))

end Sys2Proof.Machine
end

