-- ==== Sys2Proof/Laws/Accept.lean ====
section
/-! SUPPORT. The inversion of an acceptance, with what the call function says of the same request; and
small lemmas about runs, the monitor and the frames a model admits. -/

namespace Sys2Proof.Machine

/-- Acceptance of a read: an error, with the call function's answer for it, or the command built. -/
theorem acceptRead_call (r : Request) (c : Byte) (m : Mode) (s : State) :
    (∃ e, e ≠ .transportError ∧ readError s.configured s.model c = some e ∧
        acceptRead r c m s = raise e (emit (.accept r) { s with op := r.op }) ∧
        ∀ a, call.callRead s.settings r c m a =
          some (endedAtAcceptance s.settings r (errorResponse (errorCode e)))) ∨
      (s.configured = true ∧ c.toNat < s.model.toNat ∧
        acceptRead r c m s =
          { emit (.accept r) s with
            op := r.op, cmd := cmdFrame m (c.setWidth 3), status := 0, phase := .select } ∧
        ∀ a, call.callRead s.settings r c m a =
          callOnBus s.settings r (cmdFrame m (c.setWidth 3)) a) := by
  rcases acceptRead_cases r c m s with ⟨e, he, h⟩ | ⟨he, h⟩
  · refine .inl ⟨e, ?_, he, h, fun a => by simp [call.callRead, State.settings, he]⟩
    rcases readError_some he with ⟨rfl, _⟩ | ⟨rfl, _⟩ <;> simp
  · have hc := readError_none.1 he
    exact .inr ⟨hc.1, hc.2, h, fun a => by simp [call.callRead, State.settings, he]⟩

/-- A request with a target is a read of that target, for the machine and for the call function. -/
theorem accepted_of_target {r : Request} {c : Byte} {m : Mode} (h : r.target = some (c, m))
    (s : State) :
    r.op ≠ 0 ∧ accepted r s = acceptRead r c m s ∧
      ∀ S a, call S r a = call.callRead S r c m a := by
  cases r <;> cases h <;> exact ⟨by simp [Request.op], rfl, fun _ _ => rfl⟩

/-- Everything the acceptance of a request can do: raise an error found at acceptance, latch a
configuration, or build the command of a read; and the call function's result in each case. -/
theorem accepted_cases (r : Request) (s : State) :
    (∃ e, e ≠ .transportError ∧
        accepted r s = raise e (emit (.accept r) { s with op := r.op }) ∧
        ∀ a, call s.settings r a =
          some (endedAtAcceptance s.settings r (errorResponse (errorCode e)))) ∨
      (∃ m v, r = .config m v ∧ s.configured = false ∧ (m = 2 ∨ m = 4 ∨ m = 8) ∧
        accepted r s =
          { emit (.accept r) s with
            op := 0, model := m.setWidth 4, vref := v, configured := true, status := 0,
            phase := .respond } ∧
        ∀ a, call s.settings r a =
          some (endedAtAcceptance ⟨true, m.setWidth 4, v⟩ r ⟨0, 0, 0, .zero⟩)) ∨
      (∃ c m, r.target = some (c, m) ∧ r.op ≠ 0 ∧ s.configured = true ∧
        c.toNat < s.model.toNat ∧
        accepted r s =
          { emit (.accept r) s with
            op := r.op, cmd := cmdFrame m (c.setWidth 3), status := 0, phase := .select } ∧
        ∀ a, call s.settings r a =
          callOnBus s.settings r (cmdFrame m (c.setWidth 3)) a) := by
  cases ht : r.target with
  | none =>
    obtain ⟨m, v, rfl⟩ : ∃ m v, r = .config m v := by
      cases r with
      | config m v => exact ⟨m, v, rfl⟩
      | readRaw c m => cases ht
      | read c m => cases ht
      | readV c => cases ht
    rcases acceptConfig_cases m v s with ⟨e, he, h⟩ | ⟨he, h⟩
    · refine .inl ⟨e, ?_, h, fun a => by simp [call, State.settings, he]⟩
      rcases configError_some he with ⟨rfl, _⟩ | ⟨rfl, _⟩ <;> simp
    · have hc := configError_none.1 he
      exact .inr (.inl ⟨m, v, rfl, hc.1, hc.2, h, fun a => by simp [call, State.settings, he]⟩)
  | some target =>
    obtain ⟨c, m⟩ := target
    obtain ⟨hop, hacc, hcall⟩ := accepted_of_target ht s
    rcases acceptRead_call r c m s with ⟨e, hne, _, h, hc⟩ | ⟨hconf, hlt, h, hc⟩
    · exact .inl ⟨e, hne, hacc.trans h, fun a => (hcall _ a).trans (hc a)⟩
    · exact .inr (.inr ⟨c, m, rfl, hop, hconf, hlt, hacc.trans h,
        fun a => (hcall _ a).trans (hc a)⟩)

/-- A run of one step more, by its first step. -/
theorem run_succ (n : Nat) {s t : State} (h : step s = .next t) :
    core.run (n + 1) s = core.run n t := by
  have hs : core.step s = .next t := h
  simp only [Host.Core.run, hs]

/-- The command of a channel below the model is one of the frames the model admits. -/
theorem cmdFrame_mem_sendable {model : BitVec 4} {c : Byte} (m : Mode)
    (h : c.toNat < model.toNat) :
    cmdFrame m (c.setWidth 3) ∈ ChannelSpace.sendable model := by
  have hu : c.setWidth 3 ∈ ChannelSpace.usable model := by
    refine List.mem_filter.2 ⟨?_, by simp; omega⟩
    generalize c.setWidth 3 = x
    revert x
    decide
  cases m
  · exact List.mem_append_left _ (List.mem_map_of_mem hu)
  · exact List.mem_append_right _ (List.mem_map_of_mem hu)

end Sys2Proof.Machine

namespace Sys2Proof.Safety

/-- The monitor reads a trace event by event. -/
theorem onTrace_append (M : Monitor) (t : List Machine.Event) (e : Machine.Event) :
    onTrace M (t ++ [e]) = (onTrace M t).bind fun M => onEvent M e := by
  simp [onTrace]

end Sys2Proof.Safety
end

