-- ==== Sys2Proof/Laws/Environment.lean ====
section
/-! SUPPORT. What the environment's actions can do, and `vscale` in the reference instance. -/

namespace Sys2Proof.Machine

/-- Queueing an answer and ignoring a late one are all that `answerExchange` can do. -/
theorem answerExchange_cases (a : Answer) (s : State) :
    (s.abandoned = 0 ∧ s.answerExchange a = { s with answers := s.answers ++ [a] }) ∨
      ∃ n, s.abandoned = n + 1 ∧ s.answerExchange a = { s with abandoned := n } := by
  unfold State.answerExchange
  cases s.abandoned with
  | zero => exact .inl ⟨rfl, rfl⟩
  | succ n => exact .inr ⟨n, rfl, rfl⟩

@[simp] theorem underWay_iff (s : State) :
    s.underWay = true ↔ s.phase = .start ∨ s.phase = .wait := by
  simp [State.underWay]

@[simp] theorem applyReset_requests (s : State) : s.applyReset.requests = s.requests := rfl
@[simp] theorem applyReset_trace (s : State) : s.applyReset.trace = [] := rfl
@[simp] theorem applyReset_phase (s : State) : s.applyReset.phase = .idle := rfl
@[simp] theorem applyReset_csN (s : State) : s.applyReset.csN = true := rfl

/-- In the exact rationals the scale is the exact quotient (`41_read.md` R88). -/
@[simp] theorem vscaleIn_exact (raw : Raw) (q : Rat) :
    vscaleIn exactNumerics raw (.number q) = .number (raw.toNat * q / 1024) := rfl

end Sys2Proof.Machine
end

