-- ==== Sys2Proof/Laws/PerInstr.lean ====
section
/-! SUPPORT. Per operation: its encoding is a word of its own row of `spec/opcode_table.json`, of the
row's width and agreeing with the row's match under the row's mask. -/

namespace Sys2Proof.Laws.TableRow

/-- A row of the opcode table: width, match, mask. -/
structure Row where
  width : Nat
  bits : Nat
  mask : Nat

/-- The row of an operation, copied from `spec/opcode_table.json`. -/
def row : Instr → Row
  | .config _ => ⟨16, 0x0000, 0xC000⟩
  | .readraw _ _ => ⟨16, 0x4000, 0xC000⟩
  | .read _ _ => ⟨16, 0x8000, 0xC000⟩
  | .readv _ => ⟨16, 0xC000, 0xC000⟩
  | .sglCh0 _ => ⟨24, 0x018000, 0xFFFF00⟩
  | .sglCh1 _ => ⟨24, 0x019000, 0xFFFF00⟩
  | .sglCh2 _ => ⟨24, 0x01A000, 0xFFFF00⟩
  | .sglCh3 _ => ⟨24, 0x01B000, 0xFFFF00⟩
  | .sglCh4 _ => ⟨24, 0x01C000, 0xFFFF00⟩
  | .sglCh5 _ => ⟨24, 0x01D000, 0xFFFF00⟩
  | .sglCh6 _ => ⟨24, 0x01E000, 0xFFFF00⟩
  | .sglCh7 _ => ⟨24, 0x01F000, 0xFFFF00⟩
  | .diffCh0 _ => ⟨24, 0x010000, 0xFFFF00⟩
  | .diffCh1 _ => ⟨24, 0x011000, 0xFFFF00⟩
  | .diffCh2 _ => ⟨24, 0x012000, 0xFFFF00⟩
  | .diffCh3 _ => ⟨24, 0x013000, 0xFFFF00⟩
  | .diffCh4 _ => ⟨24, 0x014000, 0xFFFF00⟩
  | .diffCh5 _ => ⟨24, 0x015000, 0xFFFF00⟩
  | .diffCh6 _ => ⟨24, 0x016000, 0xFFFF00⟩
  | .diffCh7 _ => ⟨24, 0x017000, 0xFFFF00⟩

/-- The encoding of an operation is a word of its row. -/
def Statement (i : Instr) : Prop :=
  match encode i with
  | .request w =>
    (row i).width = 16 ∧ w &&& BitVec.ofNat 16 (row i).mask = BitVec.ofNat 16 (row i).bits
  | .frame f =>
    (row i).width = 24 ∧ f &&& BitVec.ofNat 24 (row i).mask = BitVec.ofNat 24 (row i).bits

/-- The mask `0xC000` keeps the field `op` of a request word. -/
theorem requestWord_masked :
    ∀ (op : BitVec 2) (s : BitVec 1) (arg : Byte),
      requestWord op s arg &&& 0xC000#16 = op.setWidth 16 <<< 14 := by
  decide +kernel

/-- No bit of the pad byte is under the mask `0xFFFF00`. -/
theorem pad_masked : ∀ p : Byte, p.setWidth 24 &&& 0xFFFF00#24 = 0#24 := by
  decide +kernel

/-- The mask `0xFFFF00` keeps the constant of a command frame. -/
theorem withPad_masked {K : Frame} (hK : K &&& 0xFFFF00#24 = K) (p : Byte) :
    withPad K p &&& 0xFFFF00#24 = K := by
  unfold withPad
  rw [BitVec.and_comm, BitVec.and_or_distrib_left, BitVec.and_comm, hK, BitVec.and_comm, pad_masked,
    BitVec.or_zero]

theorem config (m : Byte) : Statement (.config m) :=
  ⟨rfl, requestWord_masked 0b00 0 m⟩
theorem readraw (c : Byte) (m : Mode) : Statement (.readraw c m) :=
  ⟨rfl, requestWord_masked 0b01 m.bit c⟩
theorem read (c : Byte) (m : Mode) : Statement (.read c m) :=
  ⟨rfl, requestWord_masked 0b10 m.bit c⟩
theorem readv (c : Byte) : Statement (.readv c) :=
  ⟨rfl, requestWord_masked 0b11 0 c⟩
theorem sglCh0 (p : Byte) : Statement (.sglCh0 p) := ⟨rfl, withPad_masked (by decide) p⟩
theorem sglCh1 (p : Byte) : Statement (.sglCh1 p) := ⟨rfl, withPad_masked (by decide) p⟩
theorem sglCh2 (p : Byte) : Statement (.sglCh2 p) := ⟨rfl, withPad_masked (by decide) p⟩
theorem sglCh3 (p : Byte) : Statement (.sglCh3 p) := ⟨rfl, withPad_masked (by decide) p⟩
theorem sglCh4 (p : Byte) : Statement (.sglCh4 p) := ⟨rfl, withPad_masked (by decide) p⟩
theorem sglCh5 (p : Byte) : Statement (.sglCh5 p) := ⟨rfl, withPad_masked (by decide) p⟩
theorem sglCh6 (p : Byte) : Statement (.sglCh6 p) := ⟨rfl, withPad_masked (by decide) p⟩
theorem sglCh7 (p : Byte) : Statement (.sglCh7 p) := ⟨rfl, withPad_masked (by decide) p⟩
theorem diffCh0 (p : Byte) : Statement (.diffCh0 p) := ⟨rfl, withPad_masked (by decide) p⟩
theorem diffCh1 (p : Byte) : Statement (.diffCh1 p) := ⟨rfl, withPad_masked (by decide) p⟩
theorem diffCh2 (p : Byte) : Statement (.diffCh2 p) := ⟨rfl, withPad_masked (by decide) p⟩
theorem diffCh3 (p : Byte) : Statement (.diffCh3 p) := ⟨rfl, withPad_masked (by decide) p⟩
theorem diffCh4 (p : Byte) : Statement (.diffCh4 p) := ⟨rfl, withPad_masked (by decide) p⟩
theorem diffCh5 (p : Byte) : Statement (.diffCh5 p) := ⟨rfl, withPad_masked (by decide) p⟩
theorem diffCh6 (p : Byte) : Statement (.diffCh6 p) := ⟨rfl, withPad_masked (by decide) p⟩
theorem diffCh7 (p : Byte) : Statement (.diffCh7 p) := ⟨rfl, withPad_masked (by decide) p⟩

end Sys2Proof.Laws.TableRow
end

