-- ==== Sys2Proof/Machine/Listing.lean ====
section
/-! DEFINITION. The written form of the host operations (`30_encoding.md` R62). -/

namespace Sys2Proof.Machine.Listing

/-- `SGL` or `DIFF` (`30_encoding.md` R62). -/
def mode : Mode → String
  | .singleEnded => "SGL"
  | .differential => "DIFF"

/-- An operand, a decimal natural 0 to 255 (`30_encoding.md` R62). -/
def operand (n : Byte) : String := toString n.toNat

/-- The line of a host operation, the voltage of `CONFIG` omitted; none for a command frame, which the
host does not write (`30_encoding.md` R62, `42_wire_commands.md` R93). -/
def line : Instr → Option String
  | .config m => some ("CONFIG " ++ operand m)
  | .readraw c m => some ("READRAW " ++ operand c ++ ", " ++ mode m)
  | .read c m => some ("READ " ++ operand c ++ ", " ++ mode m)
  | .readv c => some ("READV " ++ operand c)
  | .sglCh0 _ | .sglCh1 _ | .sglCh2 _ | .sglCh3 _ => none
  | .sglCh4 _ | .sglCh5 _ | .sglCh6 _ | .sglCh7 _ => none
  | .diffCh0 _ | .diffCh1 _ | .diffCh2 _ | .diffCh3 _ => none
  | .diffCh4 _ | .diffCh5 _ | .diffCh6 _ | .diffCh7 _ => none

end Sys2Proof.Machine.Listing
end

