-- ==== Sys2Proof/WellFormed.lean ====
section
/-! DEFINITION. Which operations are well formed. Every request is (an illegal operand is presented
and answered with an error, `30_encoding.md` R58); a command frame is when its byte 2 is `PAD2`,
since the block never sends another (`30_encoding.md` R59). -/

namespace Sys2Proof

/-- Well-formedness of an operation (`30_encoding.md` R58, R59). -/
def Instr.wellFormed : Instr → Bool
  | .config _ | .readraw _ _ | .read _ _ | .readv _ => true
  | .sglCh0 p | .sglCh1 p | .sglCh2 p | .sglCh3 p => p == Config.pad2
  | .sglCh4 p | .sglCh5 p | .sglCh6 p | .sglCh7 p => p == Config.pad2
  | .diffCh0 p | .diffCh1 p | .diffCh2 p | .diffCh3 p => p == Config.pad2
  | .diffCh4 p | .diffCh5 p | .diffCh6 p | .diffCh7 p => p == Config.pad2

end Sys2Proof
end

