-- ==== Sys2Proof/Tests/Slice0.lean ====
section
/-! SUPPORT. Small tests, expected results from `95_test_vectors.md` or by hand from the rules named,
and a witness for the hypotheses of each statement. -/

namespace Sys2Proof.Tests

open Sys2Proof.Machine Sys2Proof.Safety

/-! ## Helpers -/

/-- The next state, if there is one. -/
def after : Host.Outcome State Fault Refusal → Option State
  | .next s => some s
  | .fault _ => none
  | .refused _ => none

/-- A block at rest, configured for `m` channels at 3.3, or unconfigured when `m` is 0. -/
def block (m : BitVec 4) : State :=
  { State.reset with configured := m != 0, model := m, vref := Config.referenceVref }

/-- A block at rest with a request word on its port and the transport's answers to come. -/
def ready (m : BitVec 4) (w : ReqWord) (answers : List Answer) : State :=
  { block m with requests := [⟨w, Config.referenceVref⟩], answers := answers }

/-- A block in phase `p` of a `READ 3, SGL` (`95_test_vectors.md` P1). -/
def reading (p : Phase) (answers : List Answer) : State :=
  { block 8 with
    phase := p, op := 2, cmd := 0x01B000, csN := !csLowPhase p, answers := answers }

/-- A block in `RESPOND` with the registers given. -/
def responding (op : BitVec 2) (status : BitVec 3) (rsp : Frame) : State :=
  { block 8 with phase := .respond, op := op, status := status, rsp := rsp }

/-! ## Well-formedness -/

/-- A frame whose pad byte is not `PAD2` is ill formed, each constructor in turn (R59). -/
theorem test_wellFormed_refuses_pad :
    [Instr.sglCh0 1, .sglCh1 1, .sglCh2 1, .sglCh3 1, .sglCh4 1, .sglCh5 1, .sglCh6 1, .sglCh7 1,
      .diffCh0 1, .diffCh1 1, .diffCh2 1, .diffCh3 1, .diffCh4 1, .diffCh5 1, .diffCh6 1,
      .diffCh7 1].all (fun i => !i.wellFormed) = true := by decide

/-- Frames with `PAD2`, and requests with any operand, are well formed (R58, R59). -/
theorem test_wellFormed_accepts :
    [Instr.sglCh0 0, .diffCh7 0, .config 3, .readraw 255 .differential, .read 8 .singleEnded,
      .readv 9].all Instr.wellFormed = true := by decide

/-! ## Decoding: words written out from the encodings -/

/-- `CONFIG 8`: op 00, reserved 00000, s 0, arg 00001000 (R51, R62). -/
theorem test_decode_config : decodeTableWord 16 0b0000000000001000 = some (.config 8) := by decide
/-- `CONFIG 2` with the reserved bits set, and with `s` set (V1). -/
theorem test_decode_config_ignored :
    decodeRequest 0x3E02 = .config 2 ∧ decodeRequest 0x0102 = .config 2 := by decide
/-- `READRAW 3, SGL`: op 01, s 1, arg 00000011 (R62). -/
theorem test_decode_readraw :
    decodeTableWord 16 0b0100000100000011 = some (.readraw 3 .singleEnded) := by decide
/-- `READRAW 7, DIFF` (V6). -/
theorem test_decode_readraw_diff : decodeRequest 0x4007 = .readraw 7 .differential := by decide
/-- `READ 0, DIFF`: op 10, s 0, arg 0 (R62). -/
theorem test_decode_read :
    decodeTableWord 16 0b1000000000000000 = some (.read 0 .differential) := by decide
/-- `READ 255, SGL` (V6). -/
theorem test_decode_read_255 : decodeRequest 0x81FF = .read 255 .singleEnded := by decide
/-- `READV 1`: op 11, s 0, arg 1; and `READV 7` with `s` written 1 (R62, V6). -/
theorem test_decode_readv :
    decodeTableWord 16 0b1100000000000001 = some (.readv 1) ∧
      decodeRequest 0xC107 = .readv 7 := by decide
/-- `SGL_CH0`: 00000001, s 1, c 000, 0000, pad 0 (R94). -/
theorem test_decode_sglCh0 :
    decodeTableWord 24 0b000000011000000000000000 = some (.sglCh0 0) := by decide
/-- `SGL_CH1`: 00000001, s 1, c 001, 0000, pad 0 (R95). -/
theorem test_decode_sglCh1 :
    decodeTableWord 24 0b000000011001000000000000 = some (.sglCh1 0) := by decide
/-- `SGL_CH2`: 00000001, s 1, c 010, 0000, pad 0 (R96). -/
theorem test_decode_sglCh2 :
    decodeTableWord 24 0b000000011010000000000000 = some (.sglCh2 0) := by decide
/-- `SGL_CH3`: 00000001, s 1, c 011, 0000, pad 0 (R97). -/
theorem test_decode_sglCh3 :
    decodeTableWord 24 0b000000011011000000000000 = some (.sglCh3 0) := by decide
/-- `SGL_CH4`: 00000001, s 1, c 100, 0000, pad 0 (R98). -/
theorem test_decode_sglCh4 :
    decodeTableWord 24 0b000000011100000000000000 = some (.sglCh4 0) := by decide
/-- `SGL_CH5`: 00000001, s 1, c 101, 0000, pad 0 (R99). -/
theorem test_decode_sglCh5 :
    decodeTableWord 24 0b000000011101000000000000 = some (.sglCh5 0) := by decide
/-- `SGL_CH6`: 00000001, s 1, c 110, 0000, pad 0 (R100). -/
theorem test_decode_sglCh6 :
    decodeTableWord 24 0b000000011110000000000000 = some (.sglCh6 0) := by decide
/-- `SGL_CH7`: 00000001, s 1, c 111, 0000, pad 0 (R101). -/
theorem test_decode_sglCh7 :
    decodeTableWord 24 0b000000011111000000000000 = some (.sglCh7 0) := by decide
/-- `DIFF_CH0`: 00000001, s 0, c 000, 0000, pad 0 (R102). -/
theorem test_decode_diffCh0 :
    decodeTableWord 24 0b000000010000000000000000 = some (.diffCh0 0) := by decide
/-- `DIFF_CH1`: 00000001, s 0, c 001, 0000, pad 0 (R103). -/
theorem test_decode_diffCh1 :
    decodeTableWord 24 0b000000010001000000000000 = some (.diffCh1 0) := by decide
/-- `DIFF_CH2`: 00000001, s 0, c 010, 0000, pad 0 (R104). -/
theorem test_decode_diffCh2 :
    decodeTableWord 24 0b000000010010000000000000 = some (.diffCh2 0) := by decide
/-- `DIFF_CH3`: 00000001, s 0, c 011, 0000, pad 0 (R105). -/
theorem test_decode_diffCh3 :
    decodeTableWord 24 0b000000010011000000000000 = some (.diffCh3 0) := by decide
/-- `DIFF_CH4`: 00000001, s 0, c 100, 0000, pad 0 (R106). -/
theorem test_decode_diffCh4 :
    decodeTableWord 24 0b000000010100000000000000 = some (.diffCh4 0) := by decide
/-- `DIFF_CH5`: 00000001, s 0, c 101, 0000, pad 0 (R107). -/
theorem test_decode_diffCh5 :
    decodeTableWord 24 0b000000010101000000000000 = some (.diffCh5 0) := by decide
/-- `DIFF_CH6`: 00000001, s 0, c 110, 0000, pad 0 (R108). -/
theorem test_decode_diffCh6 :
    decodeTableWord 24 0b000000010110000000000000 = some (.diffCh6 0) := by decide
/-- `DIFF_CH7`: 00000001, s 0, c 111, 0000, pad 0 (R109). -/
theorem test_decode_diffCh7 :
    decodeTableWord 24 0b000000010111000000000000 = some (.diffCh7 0) := by decide
/-- A first byte other than `0x01`, and a low nibble other than 0, are refused by name (R54, R59). -/
theorem test_decode_refuses :
    (decodeFrame 0x008000 matches .error .startByte) = true ∧
      (decodeFrame 0x018100 matches .error .zeroNibble) = true ∧
      decodeTableWord 24 0x028000 = none ∧ decodeTableWord 8 0x01 = none ∧
      decodeTableWord 16 0x10000 = none := by decide
/-- `READ 3, SGL` and `READV 7` encode as R62 and V6 write them. -/
theorem test_encode_requests :
    encode (.read 3 .singleEnded) = .request 0x8103 ∧ encode (.readv 7) = .request 0xC007 := by decide

/-- The lines of R62 and the words they encode to. -/
theorem test_listing :
    [0x0008, 0x4103, 0x4003, 0x8000, 0xC001].map (fun w => Listing.line (decodeRequest w)) =
      [some "CONFIG 8", some "READRAW 3, SGL", some "READRAW 3, DIFF", some "READ 0, DIFF",
        some "READV 1"] := by decide

/-! ## CONFIG (V1) -/

/-- `CONFIG 8` from reset latches the model. -/
theorem test_config_latches :
    (after (step (ready 0 0x0008 []))).map (fun s => (s.configured, s.model, s.status, s.phase)) =
      some (true, 8, 0, .respond) := by decide
/-- `CONFIG 16` is refused on the 8-bit value: status 1, still unconfigured. -/
theorem test_config_16 :
    (after (step (ready 0 0x0010 []))).map (fun s => (s.configured, s.model, s.status)) =
      some (false, 0, 1) := by decide
/-- `CONFIG 8` after `CONFIG 2` does not change the model: status 5 (P4 line 4). -/
theorem test_config_again :
    (after (step (ready 2 0x0008 []))).map (fun s => (s.model, s.status)) = some (2, 5) := by decide

/-! ## Reads (V2, V3, V7) -/

/-- `READRAW 3, SGL` with `MODEL = 8` builds `0x01B000` with chip-select still high (R85). -/
theorem test_readraw_accepts :
    (after (step (ready 8 0x4103 []))).map (fun s => (s.phase, s.cmd, s.csN)) =
      some (.select, 0x01B000, true) := by decide
/-- `READRAW 255, DIFF` is out of range. -/
theorem test_readraw_255 :
    (after (step (ready 8 0x40FF []))).map (fun s => (s.phase, s.status, s.cmd)) =
      some (.respond, 2, 0) := by decide
/-- `READ 8, SGL` with `MODEL = 8` is out of range although `8 & 7 = 0` (V2). -/
theorem test_read_8 :
    (after (step (ready 8 0x8108 []))).map (fun s => (s.phase, s.status, s.cmd)) =
      some (.respond, 2, 0) := by decide
/-- `READ 200, SGL` from reset: the state check comes first (V7). -/
theorem test_read_unconfigured :
    (after (step (ready 0 0x81C8 []))).map (fun s => (s.phase, s.status)) =
      some (.respond, 4) := by decide
/-- `READV 1` with `s` written 0 sends the single-ended frame (false variant (d)). -/
theorem test_readv_forces_single :
    (after (step (ready 2 0xC001 []))).map (fun s => (s.phase, s.cmd)) =
      some (.select, 0x019000) := by decide
/-- `READV 2` with `MODEL = 2` is out of range (P4 line 6). -/
theorem test_readv_2 :
    (after (step (ready 2 0xC002 []))).map (fun s => (s.phase, s.status)) =
      some (.respond, 2) := by decide

/-! ## Command frames (V3): the START step sends `CMD` -/

/-- In `START` with the frame `f` in `CMD`, what the step sends, and the phase it goes to. -/
def sends (f : Nat) : Option (List Event × Phase) :=
  (after (step (State.reset.withFetchWord 24 f))).map fun s => (s.trace, s.phase)

theorem test_sends_sglCh0 : sends 0x018000 = some ([.xferStart 0x018000], .wait) := by decide
theorem test_sends_sglCh1 : sends 0x019000 = some ([.xferStart 0x019000], .wait) := by decide
theorem test_sends_sglCh2 : sends 0x01A000 = some ([.xferStart 0x01A000], .wait) := by decide
theorem test_sends_sglCh3 : sends 0x01B000 = some ([.xferStart 0x01B000], .wait) := by decide
theorem test_sends_sglCh4 : sends 0x01C000 = some ([.xferStart 0x01C000], .wait) := by decide
theorem test_sends_sglCh5 : sends 0x01D000 = some ([.xferStart 0x01D000], .wait) := by decide
theorem test_sends_sglCh6 : sends 0x01E000 = some ([.xferStart 0x01E000], .wait) := by decide
theorem test_sends_sglCh7 : sends 0x01F000 = some ([.xferStart 0x01F000], .wait) := by decide
theorem test_sends_diffCh0 : sends 0x010000 = some ([.xferStart 0x010000], .wait) := by decide
theorem test_sends_diffCh1 : sends 0x011000 = some ([.xferStart 0x011000], .wait) := by decide
theorem test_sends_diffCh2 : sends 0x012000 = some ([.xferStart 0x012000], .wait) := by decide
theorem test_sends_diffCh3 : sends 0x013000 = some ([.xferStart 0x013000], .wait) := by decide
theorem test_sends_diffCh4 : sends 0x014000 = some ([.xferStart 0x014000], .wait) := by decide
theorem test_sends_diffCh5 : sends 0x015000 = some ([.xferStart 0x015000], .wait) := by decide
theorem test_sends_diffCh6 : sends 0x016000 = some ([.xferStart 0x016000], .wait) := by decide
theorem test_sends_diffCh7 : sends 0x017000 = some ([.xferStart 0x017000], .wait) := by decide

/-! ## The sequencer -/

/-- SELECT drives the line low, RELEASE drives it high (R78, R82). -/
theorem test_select_release :
    (after (step (reading .select []))).map (fun s => (s.csN, s.phase)) = some (false, .start) ∧
      (after (step (reading .release []))).map (fun s => (s.csN, s.phase)) =
        some (true, .respond) := by decide
/-- An error of the transport: status 3, `RSP` not written, RELEASE next (R81). -/
theorem test_wait_err :
    (after (step (reading .wait [.err]))).map (fun s => (s.status, s.rsp, s.phase)) =
      some (3, 0, .release) := by decide
/-- `READ` answered by `0x01FEFF` gives 767 and not 1023 (false variant (c)). -/
theorem test_respond_read :
    (after (step (responding 2 0 0x01FEFF))).map (fun s => s.trace) =
      some [.respond ⟨0, 0, 767, .zero⟩] := by decide
/-- `READRAW` answered by `0x00037F` gives the frame and 895 (V7). -/
theorem test_respond_readraw :
    (after (step (responding 1 0 0x00037F))).map (fun s => s.trace) =
      some [.respond ⟨0, 0x00037F, 895, .zero⟩] := by decide
/-- `READV` at 3.3 answered by `0x010200` gives the scale of 512 (S6), and all registers are cleared. -/
theorem test_respond_readv :
    (after (step (responding 3 0 0x010200))).map (fun s => (s.trace, s.op, s.rsp, s.phase)) =
      some ([.respond ⟨0, 0, 0, vscale 512 (.number ⟨33, 10, by decide, by decide⟩)⟩], 0, 0, .idle) := rfl

/-! ## Values -/

/-- Rows of V4. -/
theorem test_dec10 :
    [dec10 0x000000, dec10 0x0001FF, dec10 0x0102FF, dec10 0xFFFFFF, dec10 0xABFC00,
      dec10 0x000401, dec10 0x00FE80] = [0, 511, 767, 1023, 0, 1, 640] := by decide
/-- Rows of V5, in the exact rationals. -/
theorem test_vscale :
    vscaleIn exactNumerics 1 (.number (33 / 10)) = .number (33 / 10240) ∧
      vscaleIn exactNumerics 640 (.number (33 / 10)) = .number (33 / 16) ∧
      vscaleIn exactNumerics 1023 (.number 5) = .number (5115 / 1024) ∧
      vscaleIn exactNumerics 512 (.number (-33 / 10)) = .number (-33 / 20) ∧
      Config.referenceVref = .number (33 / 10) := by decide +kernel
/-- The note on V5: in binary64 the row of 512 is the value nearest 1.65, and the row of 1023 is
3.2967773437499996 and not the value nearest 3.29677734375. -/
theorem test_vscale_binary64 :
    vscaleIn (binaryNumerics binary64) 512 (roundBinary binary64 (33 / 10)) =
        roundBinary binary64 (165 / 100) ∧
      vscaleIn (binaryNumerics binary64) 1023 (roundBinary binary64 (33 / 10)) =
        roundBinary binary64 (32967773437499996 / 10000000000000000) ∧
      roundBinary binary64 (32967773437499996 / 10000000000000000) ≠
        roundBinary binary64 (329677734375 / 100000000000) := by decide +kernel
/-- By hand from IEEE 754: the nearest binary32 value to 1/10, a tie to even, the least positive value,
overflow, and 0 times infinity. -/
theorem test_roundBinary :
    roundBinary binary32 (1 / 10) = .number (13421773 / 134217728) ∧
      roundBinary binary32 16777217 = .number 16777216 ∧
      roundBinary binary32 (mkRat 1 (2 ^ 149)) = .number (mkRat 1 (2 ^ 149)) ∧
      roundBinary binary32 (2 ^ 128) = signedInfinity false ∧
      vscaleIn (binaryNumerics binary32) 0 (signedInfinity true) = notANumber := by decide +kernel
/-- The bits sent for `READ 3, SGL` at bit times 7 to 11 (V8). -/
theorem test_wire :
    [7, 8, 9, 10, 11, 12].map (Wire.bitAt 0x01B000) = [true, true, false, true, true, false] := by
  decide
/-- An exchange lasts at least 24 microseconds at 1 MHz (R147). -/
theorem test_duration : Wire.leastSeconds 1000000 = 24 / 1000000 := by decide +kernel
/-- The bytes of the source's response frame (S8). -/
theorem test_bytes :
    Wire.ofBytes 0x01 0x02 0xFF = 0x0102FF ∧ Wire.bytes 0x0102FF = [0x01, 0x02, 0xFF] := by decide
/-- What `DIFF_CH5` and `SGL_CH5` measure (R99, R107). -/
theorem test_measures :
    ChannelSpace.measures .differential 5 = (5, some 4) ∧
      ChannelSpace.measures .singleEnded 5 = (5, none) := by decide
/-- A reset in the middle of an exchange drives the line high and forgets the operation (R132). -/
theorem test_reset_in_exchange :
    ((reading .wait [.err]).applyReset.csN, (reading .wait [.err]).applyReset.phase,
      (reading .wait [.err]).applyReset.answers) = (true, .idle, []) := by decide
/-- The answer that comes after such a reset is ignored, and the one after it is not (R132). -/
theorem test_late_answer :
    let s := (reading .wait []).applyReset.answerExchange (.ok 7)
    (s.answers, s.abandoned) = ([], 0) ∧ (s.answerExchange .err).answers = [.err] := by decide
/-- The host presents, the transport answers: at the end of the queue. -/
theorem test_environment :
    ((block 2).presentRequest ⟨0x8000, .zero⟩).requests = [⟨0x8000, .zero⟩] ∧
      ((block 0).presentConfig 8 none).requests = [⟨0x0008, Config.defaultVref⟩] ∧
      ((reading .wait [.err]).answerExchange (.ok 5)).answers = [.err, .ok 5] :=
  ⟨by decide, rfl, by decide⟩

/-! ## Witnesses: states that meet the hypotheses of the statements -/

theorem witness_ChipSelectLevelInvariant :
    ∃ t, ChipSelectOk (reading .select []) ∧ step (reading .select []) = .next t ∧
      Ports.reqReady (block 8) = true ∧ ChipSelectOk (block 8) := ⟨_, by decide, rfl, by decide, by decide⟩
theorem witness_StepKeepsLocalsClearInIdle :
    ∃ t, NoLeak (responding 2 0 5) ∧ step (responding 2 0 5) = .next t := ⟨_, by decide, rfl⟩
theorem witness_StepKeepsSettingsLegal :
    ∃ t, SettingsLegal (ready 0 2 []) ∧ step (ready 0 2 []) = .next t := ⟨_, by decide, rfl⟩
theorem witness_StepKeepsStatusLegal :
    ∃ t, StatusLegal (reading .wait [.err]) ∧ step (reading .wait [.err]) = .next t := ⟨_, by decide, rfl⟩
theorem witness_StepKeepsCommandAdmitted :
    ∃ t, CommandAdmitted (reading .select []) ∧ step (reading .select []) = .next t := ⟨_, by decide, rfl⟩
theorem witness_StepKeepsChipSelectBalanced :
    ∃ t, ChipSelectOk (reading .select []) ∧ CsBalanced (reading .select []) ∧
      step (reading .select []) = .next t := ⟨_, by decide, by decide, rfl⟩
theorem witness_StepKeepsOneExchangePerSelect :
    ∃ t, OneExchangePerSelect (reading .select []) ∧ step (reading .select []) = .next t := ⟨_, by decide, rfl⟩
/-- An idle block before any event. -/
theorem witness_StepKeepsTraceConforming :
    ∃ t, Conforms (ready 0 0x0002 []) ∧ step (ready 0 0x0002 []) = .next t := ⟨_, ⟨Config.referenceVref, _, rfl, rfl, rfl, rfl, rfl, rfl, rfl⟩, rfl⟩
theorem witness_CallFunctionRefinesPhases :
    AtRest (ready 8 0x8103 [.ok 0x0102FF]) ∧
      (call (block 0).settings (PortRequest.decoded ⟨0x0003, .zero⟩) none).map
        (fun r => (r.response.status, r.events.length)) = some (1, 2) ∧
      (call (ready 8 0x8103 [.ok 0x0102FF]).settings
        (PortRequest.decoded ⟨0x8103, Config.referenceVref⟩) (some (.ok 0x0102FF))).map
          (fun r => (r.response.raw, r.events.length)) = some (767, 6) := by decide
theorem witness_UnansweredReadStaysInWait :
    AtRest (ready 2 0x8101 []) ∧
      (PortRequest.decoded ⟨0x8101, Config.referenceVref⟩).target = some (1, .singleEnded) ∧
      (1#8).toNat < (ready 2 0x8101 []).model.toNat ∧ (ready 2 0x8101 []).answers = [] := by decide
theorem witness_StepFollowsPhaseTable :
    ∃ t u, step (ready 8 0x8103 [.ok 0x0102FF]) = .next t ∧ step (ready 8 0x8108 []) = .next u := ⟨_, _, rfl, rfl⟩
theorem witness_StepAppendsOneEvent :
    ∃ t, step (reading .release []) = .next t := ⟨_, rfl⟩
theorem witness_ConfigurationNeverChangesOnceMade :
    ∃ t u, (ready 2 0x0008 []).configured = true ∧
      exec (.config 8) (ready 2 0x0008 []) = .next t ∧ step (ready 2 0x0008 []) = .next u := ⟨_, _, by decide, rfl, rfl⟩
theorem witness_AnsweredExchangeAlwaysReleases :
    (reading .wait [.err]).phase = .wait ∧ (reading .wait [.err]).answers = .err :: [] ∧
      (reading .wait [.ok 7]).answers = .ok 7 :: [] := by decide
theorem witness_OnlyAdmittedFramesAreSent :
    ∃ t, CommandAdmitted (reading .start []) ∧ step (reading .start []) = .next t ∧
      t.trace = (reading .start []).trace ++ [.xferStart 0x01B000] := ⟨_, by decide, rfl, rfl⟩
theorem witness_RequestsTakenOnlyWhenIdle :
    ∃ t u, (reading .select []).phase ≠ .idle ∧ step (reading .select []) = .next t ∧
      (ready 8 0x8103 [.ok 0x0102FF]).phase = .idle ∧ step (ready 8 0x8103 [.ok 0x0102FF]) = .next u := ⟨_, _, by decide, rfl, rfl, rfl⟩
theorem witness_AnswersTakenOnlyInWait :
    ∃ t u, (reading .start [.err]).phase ≠ .wait ∧ step (reading .start [.err]) = .next t ∧
      (reading .wait [.err]).phase = .wait ∧ step (reading .wait [.err]) = .next u := ⟨_, _, by decide, rfl, rfl, rfl⟩
theorem witness_StepRunsFetchedOperation :
    (ready 8 0x8103 [.ok 0x0102FF]).requests = [⟨0x8103, Config.referenceVref⟩] ∧ (ready 8 0x8103 [.ok 0x0102FF]).phase = .idle ∧
      (reading .start []).phase = .start ∧
      (decodeFrame (reading .start []).cmd).toOption = some (.sglCh3 0) ∧
      decodeTableWord 16 0xFFFF = some (.readv 255) ∧
      decodeTableWord 24 0x0170FF = some (.diffCh7 0xFF) := by decide
theorem witness_NonFramesAreRejectedByName :
    frameByte0 0x000000 ≠ 0x01 ∧ frameByte0 0x010100 = 0x01 ∧
      (0x010100 : Frame).extractLsb' 8 4 ≠ 0 ∧ (0x01F0FF : Frame).extractLsb' 8 4 = 0 := by decide
/-- A `READV` with other reserved bits and `s`, a `READ` with other reserved bits, a `CONFIG`. -/
theorem witness_IgnoredRequestBitsDoNotMatter :
    reqOp 0xC101 = reqOp 0xFE01 ∧ reqArg 0xC101 = reqArg 0xFE01 ∧ reqOp 0x8103 = 0b10 ∧
      reqMode 0x8103 = reqMode 0xBF03 ∧ reqOp 0x0002 = 0b00 := by decide
theorem witness_ConfigLatchesLegalModel :
    (ready 0 0x0002 []).phase = .idle ∧ (ready 0 0x0002 []).requests = [⟨0x0002, Config.referenceVref⟩] ∧
      (ready 0 0x0002 []).configured = false := by decide
theorem witness_ConfigRefusesIllegalModel :
    (ready 0 0x00FF []).configured = false ∧ (255 : Byte) ≠ 2 ∧ (255 : Byte) ≠ 4 ∧ (255 : Byte) ≠ 8 ∧
      (ready 0 0x00FF []).phase = .idle ∧
      (ready 0 0x00FF []).requests = [⟨0x00FF, Config.referenceVref⟩] := by decide
theorem witness_ConfigRefusedWhenConfigured :
    (ready 4 0x0004 []).configured = true ∧ (ready 4 0x0004 []).phase = .idle ∧
      (ready 4 0x0004 []).requests = [⟨0x0004, Config.referenceVref⟩] := by decide
theorem witness_ModelLegalExactlyTwoFourEight :
    (ready 0 0x0007 []).configured = false ∧ (ready 0 0x0007 []).phase = .idle ∧
      (ready 0 0x0007 []).requests = [⟨0x0007, Config.referenceVref⟩] ∧
      (8 : Byte).toNat = 8 ∧ ¬((7 : Byte).toNat = 2 ∨ (7 : Byte).toNat = 4 ∨ (7 : Byte).toNat = 8) := by decide
theorem witness_ConfigFrameUnchanged :
    ∃ t u, exec (.config 9) (ready 0 0x0009 []) = .next t ∧
      exec (.config 2) (reading .wait []) = .next u := ⟨_, _, rfl, rfl⟩
theorem witness_ValidReadBuildsItsCommand :
    (ready 8 0x8007 []).configured = true ∧ (7 : Byte).toNat < (ready 8 0x8007 []).model.toNat ∧
      (ready 8 0x8007 []).phase = .idle ∧
      (ready 8 0x8007 []).requests = [⟨0x8007, Config.referenceVref⟩] := by decide
theorem witness_ReadRefusedUnconfigured :
    (ready 0 0x8100 []).configured = false ∧ (ready 0 0x8100 []).phase = .idle ∧
      (ready 0 0x8100 []).requests = [⟨0x8100, Config.referenceVref⟩] := by decide
theorem witness_ReadRefusedOutOfRange :
    (ready 8 0x8008 []).configured = true ∧ (ready 8 0x8008 []).model.toNat ≤ (8 : Byte).toNat ∧
      (ready 8 0x8008 []).phase = .idle ∧
      (ready 8 0x8008 []).requests = [⟨0x8008, Config.referenceVref⟩] := by decide
theorem witness_ReadrawDeliversFrameAndCode :
    AtRest (ready 8 0x4103 [.ok 0x0102FF]) ∧ (ready 8 0x4103 [.ok 0x0102FF]).configured = true ∧
      (ready 8 0x4103 [.ok 0x0102FF]).requests = [⟨0x4103, Config.referenceVref⟩] ∧
      (3 : Byte).toNat < (ready 8 0x4103 [.ok 0x0102FF]).model.toNat ∧
      (ready 8 0x4103 [.ok 0x0102FF]).answers = .ok 0x0102FF :: [] := by decide
theorem witness_ReadDeliversCode :
    AtRest (ready 8 0x8107 [.ok 0x0102FF]) ∧ (ready 8 0x8107 [.ok 0x0102FF]).configured = true ∧
      (ready 8 0x8107 [.ok 0x0102FF]).requests = [⟨0x8107, Config.referenceVref⟩] ∧
      (7 : Byte).toNat < (ready 8 0x8107 [.ok 0x0102FF]).model.toNat ∧
      (ready 8 0x8107 [.ok 0x0102FF]).answers = .ok 0x0102FF :: [] := by decide
theorem witness_ReadvDeliversVoltage :
    AtRest (ready 8 0xC000 [.ok 0x0102FF]) ∧ (ready 8 0xC000 [.ok 0x0102FF]).configured = true ∧
      (ready 8 0xC000 [.ok 0x0102FF]).requests = [⟨0xC000, Config.referenceVref⟩] ∧
      (0 : Byte).toNat < (ready 8 0xC000 [.ok 0x0102FF]).model.toNat ∧
      (ready 8 0xC000 [.ok 0x0102FF]).answers = .ok 0x0102FF :: [] := by decide
theorem witness_TransportErrorReleasesThenAnswers :
    AtRest (ready 2 0x4101 [.err]) ∧ (ready 2 0x4101 [.err]).configured = true ∧
      (PortRequest.decoded ⟨0x4101, Config.referenceVref⟩).target = some (1, .singleEnded) ∧
      (1 : Byte).toNat < (ready 2 0x4101 [.err]).model.toNat ∧ (ready 2 0x4101 [.err]).answers = .err :: [] := by decide
theorem witness_RefusedOperationAnswersAtOnce :
    AtRest (ready 2 0x8102 []) ∧
      (PortRequest.decoded ⟨0x8102, Config.referenceVref⟩).target = some (2, .singleEnded) ∧
      readError true 2 2 = some .channelOutOfRange ∧
      PortRequest.decoded ⟨0x0003, Config.referenceVref⟩ = .config 3 Config.referenceVref ∧
      configError false 3 = some .invalidModel := by decide
theorem witness_ReadFrameUnchanged :
    ∃ t u v, exec (.readraw 0 .singleEnded) (ready 2 0x4100 []) = .next t ∧
      exec (.read 9 .differential) (ready 2 0x8009 []) = .next u ∧
      exec (.readv 0) (reading .wait []) = .next v := ⟨_, _, _, rfl, rfl, rfl⟩
theorem witness_SingleEndedFramesAreSent :
    (reading .start []).phase = .start := rfl
theorem witness_DifferentialFramesAreSent :
    (State.reset.withFetchWord 24 0x010000).phase = .start := rfl
theorem witness_FramesSentOnlyInStart :
    ∃ t u, encode (.diffCh0 0) = .frame 0x010000 ∧
      exec (.diffCh0 0) (reading .start []) = .next t ∧ exec (.diffCh0 0) (block 8) = .next u ∧
      (block 8).phase ≠ .start := ⟨_, _, by decide, rfl, rfl, by decide⟩
theorem witness_SelectStepDrivesChipSelectLow :
    (reading .select []).phase = .select := rfl
theorem witness_StartStepSendsCommand :
    (reading .start []).phase = .start := rfl
theorem witness_WaitStepTakesTheAnswer :
    (reading .wait [.ok 0xFFFFFF]).phase = .wait ∧
      (reading .wait [.ok 0xFFFFFF]).answers = .ok 0xFFFFFF :: [] ∧
      (reading .wait [.err]).answers = .err :: [] ∧ (reading .wait []).answers = [] := by decide
theorem witness_ReleaseStepDrivesChipSelectHigh :
    ∃ t, (reading .release []).phase = .release ∧ (reading .wait [.err]).phase = .wait ∧
      step (reading .wait [.err]) = .next t := ⟨_, rfl, rfl, rfl⟩
theorem witness_RespondStepDeliversAndClears :
    [responding 0 0 0, responding 1 0 7, responding 2 0 7, responding 3 0 7, responding 2 3 0].map
      (fun s => (s.phase, s.op, s.status)) =
      [(.respond, 0, 0), (.respond, 1, 0), (.respond, 2, 0), (.respond, 3, 0), (.respond, 2, 3)] := by decide
theorem witness_IdleWithoutRequestWaits :
    State.reset.phase = .idle ∧ State.reset.requests = [] := by decide
theorem witness_IgnoredResponseBitsDoNotMatter :
    AtRest (ready 8 0x8103 []) ∧ (PortRequest.decoded ⟨0x8103, Config.referenceVref⟩).op = 0b10 ∧
      (PortRequest.decoded ⟨0xC103, Config.referenceVref⟩).op = 0b11 ∧
      (PortRequest.decoded ⟨0x8103, Config.referenceVref⟩).target = some (3, .singleEnded) ∧
      (3 : Byte).toNat < (ready 8 0x8103 []).model.toNat ∧
      (0x0002FF : Frame).extractLsb' 0 10 = (0xFFFEFF : Frame).extractLsb' 0 10 := by decide
theorem witness_VoltageScaleIsLinear :
    (0 : Rat) < 33 / 10 := by decide +kernel
theorem witness_ResetFromAnyState :
    (reading .wait [.err]).phase = .wait ∧ (reading .start [.err]).phase = .start ∧
      (reading .select []).phase ≠ .start ∧ (reading .select []).phase ≠ .wait := by decide
theorem witness_LateAnswerIsIgnored :
    ∃ t, (reading .start []).phase = .start ∧ (reading .wait []).phase = .wait ∧
      (reading .wait []).answers = [] ∧ (reading .wait []).abandoned = 0 ∧
      step (reading .select []) = .next t := ⟨_, rfl, rfl, rfl, rfl, rfl⟩
theorem witness_PortsFollowThePhase :
    (reading .start []).phase = .start ∧ (block 8).phase ≠ .start ∧ (block 8).phase ≠ .respond := by decide
theorem witness_WireBitsFollowTheFrame :
    14 ≤ 14 ∧ 23 < 24 ∧ Wire.bitAt 0x000001 23 = true ∧ (dec10 0x000001).getLsbD 0 = true := by decide

end Sys2Proof.Tests
end

/-! ## The voltage scale in the exact rationals -/

namespace Sys2Proof.Machine

/-- A ten-bit code is below 1024, so the exact scale of a positive voltage stays below that voltage
(`41_read.md` R88). -/
theorem exactScale_bounds (raw : Raw) {q : Rat} (hq : 0 < q) :
    0 ≤ (raw.toNat : Rat) * q / 1024 ∧ (raw.toNat : Rat) * q / 1024 < q := by
  have hraw : (raw.toNat : Rat) < 1024 := by exact_mod_cast raw.isLt
  constructor
  · positivity
  · rw [div_lt_iff₀ (by norm_num), mul_comm q]
    exact mul_lt_mul_of_pos_right hraw hq

/-- Settles O54: the first clause is the definition of `vscale`; in the exact rationals the witness
is the exact quotient, and the rows of the table are its values. -/
theorem voltageScaleIsLinear : Obligations.VoltageScaleIsLinear := by
  unfold Obligations.VoltageScaleIsLinear
  refine ⟨fun _ _ => rfl, fun raw q => ⟨_, vscaleIn_exact raw q, ?_, exactScale_bounds raw⟩,
    ?_, ?_, ?_⟩
  · exact div_mul_cancel₀ _ (by norm_num)
  all_goals
    rw [vscaleIn_exact, BitVec.ofNat_eq_ofNat, BitVec.toNat_ofNat]
    norm_num

end Sys2Proof.Machine

/-! ## What a step fetches -/

namespace Sys2Proof

/-- A table word that decodes to an operation is a request word or a command frame, of its width. -/
theorem decodeTableWord_cases {nbits w : Nat} {i : Instr} (h : decodeTableWord nbits w = some i) :
    (nbits = 16 ∧ decodeRequest (BitVec.ofNat 16 w) = i) ∨
      (nbits = 24 ∧ (decodeFrame (BitVec.ofNat 24 w)).toOption = some i) := by
  unfold decodeTableWord at h
  split at h
  next hw => exact .inl ⟨hw.1, Option.some.inj h⟩
  next =>
    split at h
    next hw => exact .inr ⟨hw.1, h⟩
    next => cases h

namespace Machine

/-- A step on a fetched operation is that operation and nothing around it. -/
theorem step_of_fetch {s : State} {i : Instr} (h : fetch s = some i) : step s = exec i s := by
  simp only [step, h]

/-- An idle block fetches the operation on the request port (`10_state.md` R20). -/
theorem fetch_idle {s : State} {p : PortRequest} {rest : List PortRequest}
    (hi : s.phase = .idle) (hr : s.requests = p :: rest) :
    fetch s = some (decodeRequest p.word) := by
  simp [fetch, hi, hr]

/-- A block in `START` fetches the command frame in `CMD` (`41_read.md` R79). -/
theorem fetch_start {s : State} (h : s.phase = .start) :
    fetch s = (decodeFrame s.cmd).toOption := by
  simp only [fetch, h]

/-- Placing a request word presents it, with 3.3 beside it, to an idle block. -/
theorem State.withFetchWord_request (s : State) (w : Nat) :
    s.withFetchWord 16 w =
      { s with
        phase := .idle, csN := true,
        requests := ⟨BitVec.ofNat 16 w, Config.referenceVref⟩ :: s.requests } :=
  if_pos rfl

/-- Placing a command frame puts it in `CMD` of a block in `START`. -/
theorem State.withFetchWord_frame (s : State) (w : Nat) :
    s.withFetchWord 24 w = { s with phase := .start, csN := false, cmd := BitVec.ofNat 24 w } :=
  if_neg (by decide)

/-- A table word placed in a state is the operation that state fetches. -/
theorem fetch_withFetchWord {nbits w : Nat} {i : Instr} (s : State)
    (h : decodeTableWord nbits w = some i) : fetch (s.withFetchWord nbits w) = some i := by
  rcases decodeTableWord_cases h with ⟨rfl, hi⟩ | ⟨rfl, hi⟩
  · rw [State.withFetchWord_request, ← hi]
    exact fetch_idle (p := ⟨BitVec.ofNat 16 w, Config.referenceVref⟩) rfl rfl
  · rw [State.withFetchWord_frame, ← hi]
    exact fetch_start rfl

/-- Settles O21: each clause names what the state fetches, and a step runs what it fetches. -/
theorem stepRunsFetchedOperation : Obligations.StepRunsFetchedOperation := by
  unfold Obligations.StepRunsFetchedOperation
  refine ⟨fun s p rest hi hr => ?_, fun s i hs hd => ?_, fun s nbits w i hd => ?_⟩
  · exact step_of_fetch (fetch_idle hi hr)
  · exact step_of_fetch (by rw [fetch_start hs, hd, Except.toOption])
  · exact step_of_fetch (fetch_withFetchWord s hd)

end Machine

end Sys2Proof

/-! ## What an acceptance does to each register -/

namespace Sys2Proof.Machine

open Sys2Proof.Safety (successors)

/-- An acceptance starts the call with its `Accept` event and touches neither chip-select nor `RSP`,
nor what the environment holds (`40_config.md` R70, `41_read.md` R75). -/
theorem accepted_frame (r : Request) (s : State) :
    (accepted r s).trace = s.trace ++ [.accept r] ∧ (accepted r s).csN = s.csN ∧
      (accepted r s).requests = s.requests ∧ (accepted r s).answers = s.answers ∧
      (accepted r s).rsp = s.rsp ∧ (accepted r s).abandoned = s.abandoned := by
  rcases accepted_cases r s with ⟨e, -, h, -⟩ | ⟨m, v, rfl, -, -, h, -⟩ | ⟨c, m, -, -, -, -, h, -⟩
  all_goals rw [h]; exact ⟨rfl, rfl, rfl, rfl, rfl, rfl⟩

@[simp] theorem accepted_trace (r : Request) (s : State) :
    (accepted r s).trace = s.trace ++ [.accept r] := (accepted_frame r s).1

@[simp] theorem accepted_csN (r : Request) (s : State) : (accepted r s).csN = s.csN := by
  obtain ⟨-, h, -⟩ := accepted_frame r s
  exact h

@[simp] theorem accepted_requests (r : Request) (s : State) :
    (accepted r s).requests = s.requests := by
  obtain ⟨-, -, h, -⟩ := accepted_frame r s
  exact h

@[simp] theorem accepted_answers (r : Request) (s : State) :
    (accepted r s).answers = s.answers := by
  obtain ⟨-, -, -, h, -⟩ := accepted_frame r s
  exact h

/-- An error found at acceptance goes straight to the response (`60_exceptions.md` R117). -/
theorem errorPhase_eq_respond {e : Err} (h : e ≠ .transportError) : errorPhase e = .respond := by
  cases e with
  | transportError => exact absurd rfl h
  | _ => rfl

/-- The codes 6 and 7 belong to no error (`60_exceptions.md` R112). -/
theorem errorCode_le_five (e : Err) : (errorCode e).toNat ≤ 5 := by
  cases e <;> decide

/-- `OK` is the code of no error (`60_exceptions.md` R112). -/
theorem errorCode_ne_zero (e : Err) : errorCode e ≠ 0 := by
  cases e <;> decide

/-- An acceptance leads to one of the successors of `IDLE` (`10_state.md` R16). -/
theorem accepted_phase (r : Request) (s : State) :
    (accepted r s).phase = .respond ∨ (accepted r s).phase = .select := by
  rcases accepted_cases r s with ⟨e, he, h, -⟩ | ⟨m, v, rfl, -, -, h, -⟩ | ⟨c, m, -, -, -, -, h, -⟩
  · exact .inl (by rw [h, raise_phase, errorPhase_eq_respond he])
  · exact .inl (by rw [h])
  · exact .inr (by rw [h])

/-- An acceptance leaves `OK` or the code of an error in `STATUS`. -/
theorem accepted_status (r : Request) (s : State) :
    (accepted r s).status = 0 ∨ ∃ e, (accepted r s).status = errorCode e := by
  rcases accepted_cases r s with ⟨e, -, h, -⟩ | ⟨m, v, rfl, -, -, h, -⟩ | ⟨c, m, -, -, -, -, h, -⟩
  · exact .inr ⟨e, by rw [h, raise_status]⟩
  · exact .inl (by rw [h])
  · exact .inl (by rw [h])

/-- `t` holds the configuration of `s`, or `s` held none and `t` holds a legal one: all that R14 and
R72 let an operation do. -/
def SettingsKeptOrLatched (s t : State) : Prop :=
  t.settings = s.settings ∨
    s.configured = false ∧ ∃ (m : Byte) (v : Config.VoltT),
      (m = 2 ∨ m = 4 ∨ m = 8) ∧ t.settings = ⟨true, m.setWidth 4, v⟩

/-- A configured block keeps its settings (`40_config.md` R72). -/
theorem SettingsKeptOrLatched.of_configured {s t : State} (h : SettingsKeptOrLatched s t)
    (hc : s.configured = true) : t.settings = s.settings := by
  rcases h with h | ⟨hn, -⟩
  · exact h
  · rw [hc] at hn; cases hn

/-- Only a successful `CONFIG` writes the settings, and only once (`40_config.md` R70, R72). -/
theorem accepted_settings (r : Request) (s : State) : SettingsKeptOrLatched s (accepted r s) := by
  rcases accepted_cases r s with ⟨e, -, h, -⟩ | ⟨m, v, -, hn, hm, h, -⟩ | ⟨c, m, -, -, -, -, h, -⟩
  · exact .inl (by rw [h]; rfl)
  · exact .inr ⟨hn, m, v, hm, by rw [h]; rfl⟩
  · exact .inl (by rw [h]; rfl)

/-! ## What an operation can do -/

/-- An operation encoded as a request word is the acceptance of a request, the voltage of `CONFIG`
read from the port (`10_state.md` R20). -/
theorem exec_of_encode_request {i : Instr} {w : ReqWord} (h : encode i = .request w) :
    ∃ r : PortRequest → Request, ∀ s, exec i s = whenAccepted s fun p => accepted (r p) := by
  cases i with
  | config m => exact ⟨fun p => .config m p.vref, fun _ => rfl⟩
  | readraw c m => exact ⟨fun _ => .readRaw c m, fun _ => rfl⟩
  | read c m => exact ⟨fun _ => .read c m, fun _ => rfl⟩
  | readv c => exact ⟨fun _ => .readV c, fun _ => rfl⟩
  | _ => cases h

/-- A busy block ignores every operation encoded as a request word (`10_state.md` R20). -/
theorem exec_request_busy {i : Instr} {w : ReqWord} (h : encode i = .request w) {s : State}
    (hb : s.phase ≠ .idle) : exec i s = .next s := by
  obtain ⟨r, hr⟩ := exec_of_encode_request h
  rw [hr, whenAccepted_busy _ hb]

/-- Everything an operation can do: be accepted, hand a frame to the transport, or nothing. -/
theorem exec_cases {i : Instr} {s t : State} (h : exec i s = .next t) :
    (∃ r p rest, s.phase = .idle ∧ s.requests = p :: rest ∧
        t = accepted r { s with requests := rest }) ∨
      (∃ f, s.phase = .start ∧ t = { emit (.xferStart f) s with phase := .wait }) ∨ t = s := by
  cases he : encode i with
  | request w =>
    obtain ⟨r, hr⟩ := exec_of_encode_request he
    rcases whenAccepted_cases ((hr s).symm.trans h) with ⟨p, rest, hi, hs, ht⟩ | ⟨-, ht⟩
    · exact .inl ⟨r p, p, rest, hi, hs, ht⟩
    · exact .inr (.inr ht)
  | frame f =>
    rcases sendFrame_cases ((exec_of_encode_frame he s).symm.trans h) with ⟨hs, ht⟩ | ⟨-, ht⟩
    · exact .inr (.inl ⟨f, hs, ht⟩)
    · exact .inr (.inr ht)

/-- Only `CONFIG` writes the settings, and only on an unconfigured block. -/
theorem exec_settings {i : Instr} {s t : State} (h : exec i s = .next t) :
    SettingsKeptOrLatched s t := by
  rcases exec_cases h with ⟨r, p, rest, -, -, rfl⟩ | ⟨f, -, rfl⟩ | rfl
  · exact accepted_settings r { s with requests := rest }
  · exact .inl rfl
  · exact .inl rfl

/-! ## What a step does to each register -/

/-- Only the acceptance of `CONFIG` writes the settings. -/
theorem step_settings {s t : State} (h : step s = .next t) : SettingsKeptOrLatched s t := by
  rcases step_cases h with ⟨p, rest, -, -, rfl⟩ | ⟨-, rfl⟩ | ⟨-, rfl⟩ | ⟨f, rest, -, -, rfl⟩ |
    ⟨rest, -, -, rfl⟩ | ⟨-, rfl⟩ | ⟨-, rfl⟩
  · exact accepted_settings p.decoded { s with requests := rest }
  all_goals exact .inl rfl

/-- A step keeps `STATUS`, clears it, or latches the code of an error. -/
theorem step_status {s t : State} (h : step s = .next t) :
    t.status = s.status ∨ t.status = 0 ∨ ∃ e, t.status = errorCode e := by
  rcases step_cases h with ⟨p, rest, -, -, rfl⟩ | ⟨-, rfl⟩ | ⟨-, rfl⟩ | ⟨f, rest, -, -, rfl⟩ |
    ⟨rest, -, -, rfl⟩ | ⟨-, rfl⟩ | ⟨-, rfl⟩
  · exact .inr (accepted_status p.decoded _)
  · exact .inl rfl
  · exact .inl rfl
  · exact .inl rfl
  · exact .inr (.inr ⟨.transportError, rfl⟩)
  · exact .inl rfl
  · exact .inr (.inl rfl)

/-- A step makes a transition of the phase table (`10_state.md` R16). -/
theorem step_phase {s t : State} (h : step s = .next t) : t.phase ∈ successors s.phase := by
  rcases step_cases h with ⟨p, rest, hp, -, rfl⟩ | ⟨hp, rfl⟩ | ⟨hp, rfl⟩ | ⟨f, rest, hp, -, rfl⟩ |
    ⟨rest, hp, -, rfl⟩ | ⟨hp, rfl⟩ | ⟨hp, rfl⟩
  case inl => simpa [hp, successors] using accepted_phase p.decoded { s with requests := rest }
  all_goals rw [hp]; exact List.mem_singleton.2 rfl

/-- `IDLE` is entered from `RESPOND` only (`10_state.md` R16). -/
theorem phase_eq_respond_of_idle_mem_successors {p : Phase} (h : .idle ∈ successors p) :
    p = .respond := by
  revert h
  cases p <;> decide

/-- A step appends one event to `TRACE` (`10_state.md` R24). -/
theorem step_trace {s t : State} (h : step s = .next t) : ∃ e, t.trace = s.trace ++ [e] := by
  rcases step_cases h with ⟨p, rest, -, -, rfl⟩ | ⟨-, rfl⟩ | ⟨-, rfl⟩ | ⟨f, rest, -, -, rfl⟩ |
    ⟨rest, -, -, rfl⟩ | ⟨-, rfl⟩ | ⟨-, rfl⟩
  · exact ⟨_, accepted_trace _ _⟩
  all_goals exact ⟨_, rfl⟩

/-- Beside the acceptance in `IDLE`, no step touches the requests on the port. -/
theorem step_requests {s t : State} (h : step s = .next t) :
    (s.phase = .idle ∧ ∃ p, s.requests = p :: t.requests) ∨
      (s.phase ≠ .idle ∧ t.requests = s.requests) := by
  rcases step_cases h with ⟨p, rest, hp, hr, rfl⟩ | ⟨hp, rfl⟩ | ⟨hp, rfl⟩ | ⟨f, rest, hp, -, rfl⟩ |
    ⟨rest, hp, -, rfl⟩ | ⟨hp, rfl⟩ | ⟨hp, rfl⟩
  case inl => exact .inl ⟨hp, p, by rw [accepted_requests, hr]⟩
  all_goals exact .inr ⟨by rw [hp]; decide, rfl⟩

/-- Beside WAIT-OK and WAIT-ERR, no step touches the transport's answers. -/
theorem step_answers {s t : State} (h : step s = .next t) :
    (s.phase = .wait ∧ ∃ a, s.answers = a :: t.answers) ∨
      (s.phase ≠ .wait ∧ t.answers = s.answers) := by
  rcases step_cases h with ⟨p, rest, hp, -, rfl⟩ | ⟨hp, rfl⟩ | ⟨hp, rfl⟩ | ⟨f, rest, hp, ha, rfl⟩ |
    ⟨rest, hp, ha, rfl⟩ | ⟨hp, rfl⟩ | ⟨hp, rfl⟩
  · exact .inr ⟨by rw [hp]; decide, accepted_answers _ _⟩
  · exact .inr ⟨by rw [hp]; decide, rfl⟩
  · exact .inr ⟨by rw [hp]; decide, rfl⟩
  · exact .inl ⟨hp, .ok f, ha⟩
  · exact .inl ⟨hp, .err, ha⟩
  · exact .inr ⟨by rw [hp]; decide, rfl⟩
  · exact .inr ⟨by rw [hp]; decide, rfl⟩

/-- Settles O14: the transition lemma `step_phase` is the statement. -/
theorem stepFollowsPhaseTable : Obligations.StepFollowsPhaseTable :=
  fun _ _ => step_phase

/-- Settles O15: the event lemma `step_trace` is the statement. -/
theorem stepAppendsOneEvent : Obligations.StepAppendsOneEvent :=
  fun _ _ => step_trace

/-- Settles O16: an operation or a step that latches settings does so on an unconfigured block. -/
theorem configurationNeverChangesOnceMade : Obligations.ConfigurationNeverChangesOnceMade :=
  ⟨fun _ _ _ hc h => (exec_settings h).of_configured hc,
    fun _ _ hc h => (step_settings h).of_configured hc⟩

/-- Settles O19: the four host operations are encoded as request words, which a busy block ignores;
`step_requests` says what a step takes from the port. -/
theorem requestsTakenOnlyWhenIdle : Obligations.RequestsTakenOnlyWhenIdle := by
  unfold Obligations.RequestsTakenOnlyWhenIdle
  refine ⟨fun s c m hb => ⟨exec_request_busy rfl hb, exec_request_busy rfl hb,
    exec_request_busy rfl hb, exec_request_busy rfl hb⟩, fun s t hb h => ?_, fun s t hi h => ?_⟩
  · rcases step_requests h with ⟨hi, -⟩ | ⟨-, hr⟩
    · exact absurd hi hb
    · exact hr
  · rcases step_requests h with ⟨-, hr⟩ | ⟨hb, -⟩
    · exact hr
    · exact absurd hi hb

/-- Settles O20, by `step_answers`. -/
theorem answersTakenOnlyInWait : Obligations.AnswersTakenOnlyInWait := by
  unfold Obligations.AnswersTakenOnlyInWait
  refine ⟨fun s t hn h => ?_, fun s t hw h => ?_⟩
  · rcases step_answers h with ⟨hw, -⟩ | ⟨-, ha⟩
    · exact absurd hw hn
    · exact ha
  · rcases step_answers h with ⟨-, ha⟩ | ⟨hn, -⟩
    · exact ha
    · exact absurd hw hn

/-- Settles O44: the operation is `sendFrame` of its frame, which does nothing outside `START`. -/
theorem framesSentOnlyInStart : Obligations.FramesSentOnlyInStart := by
  unfold Obligations.FramesSentOnlyInStart
  intro i f s t he h
  rcases sendFrame_cases ((exec_of_encode_frame he s).symm.trans h) with ⟨hs, rfl⟩ | ⟨-, rfl⟩
  · exact ⟨fun hn => absurd hs hn, rfl, rfl, rfl, rfl, rfl, rfl, rfl, rfl, rfl⟩
  · exact ⟨fun _ => rfl, rfl, rfl, rfl, rfl, rfl, rfl, rfl, rfl, rfl⟩

/-! ## The output ports by phase -/

namespace Ports

@[simp] theorem reqReady_iff (s : State) : reqReady s = true ↔ s.phase = .idle := beq_iff_eq

@[simp] theorem xferStart_iff (s : State) : xferStart s = true ↔ s.phase = .start := beq_iff_eq

@[simp] theorem rspValid_iff (s : State) : rspValid s = true ↔ s.phase = .respond := beq_iff_eq

theorem xferOut_start {s : State} (h : s.phase = .start) : xferOut s = s.cmd := if_pos h

theorem xferOut_of_ne_start {s : State} (h : s.phase ≠ .start) : xferOut s = 0 := if_neg h

theorem rsp_of_ne_respond {s : State} (h : s.phase ≠ .respond) : rsp s = ⟨0, 0, 0, .zero⟩ :=
  if_neg h

end Ports

/-- Settles O46: `step_start` with the two ports in `START`. -/
theorem startStepSendsCommand : Obligations.StartStepSendsCommand :=
  fun s h => ⟨(Ports.xferStart_iff s).2 h, Ports.xferOut_start h, step_start h⟩

/-- Settles O51, port by port. -/
theorem portsFollowThePhase : Obligations.PortsFollowThePhase := by
  unfold Obligations.PortsFollowThePhase
  refine fun s => ⟨Ports.reqReady_iff s, Ports.xferStart_iff s, Ports.xferOut_start,
    Ports.xferOut_of_ne_start, fun h => ⟨?_, Ports.rsp_of_ne_respond h⟩⟩
  exact Bool.eq_false_iff.2 fun hv => h ((Ports.rspValid_iff s).1 hv)

/-- Settles O50: with nothing fetched in `IDLE`, the sequencer has no step. -/
theorem idleWithoutRequestWaits : Obligations.IdleWithoutRequestWaits :=
  fun _ => step_idle_nil

/-! ## The outcome of the checks at acceptance -/

/-- `CONFIG` latches the configuration when its checks find no error (`40_config.md` R70). -/
theorem acceptConfig_of_no_error {m : Byte} {v : Config.VoltT} {s : State}
    (h : configError s.configured m = none) :
    acceptConfig m v s =
      { emit (.accept (.config m v)) s with
        op := 0, model := m.setWidth 4, vref := v, configured := true, status := 0,
        phase := .respond } := by
  simp only [acceptConfig, h, emit]

/-- A read raises the error its checks find (`41_read.md` R75). -/
theorem acceptRead_of_error {r : Request} {c : Byte} {m : Mode} {s : State} {e : Err}
    (h : readError s.configured s.model c = some e) :
    acceptRead r c m s = raise e (emit (.accept r) { s with op := r.op }) := by
  simp only [acceptRead, h]

/-- The state check comes before the channel check (`60_exceptions.md` R118). -/
theorem readError_unconfigured {b : Bool} (h : b = false) (model : BitVec 4) (c : Byte) :
    readError b model c = some .notConfigured := if_pos h

/-- Settles O27: the checks of `CONFIG` find no error, and the latched nibble is the model's. -/
theorem configLatchesLegalModel : Obligations.ConfigLatchesLegalModel := by
  unfold Obligations.ConfigLatchesLegalModel
  intro s p rest m hi hr hc hm
  have latched := acceptConfig_of_no_error (v := p.vref) (s := { s with requests := rest })
    (configError_none.2 ⟨hc, hm⟩)
  rw [BitVec.setWidth_eq_extractLsb' (by decide)] at latched
  exact (whenAccepted_idle _ hi hr).trans (congrArg _ latched)

/-- Settles O33: the state check refuses each of the three reads. -/
theorem readRefusedUnconfigured : Obligations.ReadRefusedUnconfigured := by
  unfold Obligations.ReadRefusedUnconfigured
  intro s p rest c m hi hr hc
  have refused (r : Request) (m : Mode) :
      acceptRead r c m { s with requests := rest } =
        raise .notConfigured (emit (.accept r) { s with requests := rest, op := r.op }) :=
    acceptRead_of_error (readError_unconfigured hc s.model c)
  refine ⟨?_, ?_, ?_⟩
  all_goals exact (whenAccepted_idle _ hi hr).trans (congrArg _ (refused _ _))

end Sys2Proof.Machine

/-! ## The invariants of the registers -/

namespace Sys2Proof.Safety

open Sys2Proof.Machine

theorem csLowPhase_iff (p : Phase) :
    csLowPhase p = true ↔ p = .start ∨ p = .wait ∨ p = .release := by
  cases p <;> decide

theorem csLowPhase_false_iff (p : Phase) :
    csLowPhase p = false ↔ p = .idle ∨ p = .select ∨ p = .respond := by
  cases p <;> decide

/-- Chip-select falls on the way into `START` and rises on the way out of `RELEASE`, and no other
step moves the line (`10_state.md` R23). -/
theorem step_chipSelectOk {s t : State} (hs : ChipSelectOk s) (h : step s = .next t) :
    ChipSelectOk t := by
  rcases step_cases h with ⟨p, rest, hp, -, rfl⟩ | ⟨-, rfl⟩ | ⟨hp, rfl⟩ | ⟨f, rest, hp, -, rfl⟩ |
    ⟨rest, hp, -, rfl⟩ | ⟨-, rfl⟩ | ⟨hp, rfl⟩
  · have hcs : s.csN = true := by rw [hs, hp]; rfl
    rcases accepted_phase p.decoded { s with requests := rest } with hph | hph
    all_goals rw [ChipSelectOk, accepted_csN, hph]; exact hcs
  · rfl
  · exact hs.trans (by rw [hp]; rfl)
  · exact hs.trans (by rw [hp]; rfl)
  · exact hs.trans (by rw [hp]; rfl)
  · rfl
  · exact hs.trans (by rw [hp]; rfl)

/-- Settles O4: `step_chipSelectOk` keeps the level, and the two sets of phases are those where
`csLowPhase` is true and where it is false. -/
theorem chipSelectLevelInvariant : Obligations.ChipSelectLevelInvariant := by
  unfold Obligations.ChipSelectLevelInvariant
  refine ⟨rfl, fun s t => step_chipSelectOk, fun s hs => ⟨?_, ?_⟩, fun s hs hready => ?_⟩
  · rw [hs, Bool.not_eq_false', csLowPhase_iff]
  · rw [hs, Bool.not_eq_true', csLowPhase_false_iff]
  · rw [hs, (Ports.reqReady_iff s).1 hready]; rfl

/-- Settles O5: `IDLE` is entered by the RESPOND step only, and that step clears the registers. -/
theorem stepKeepsLocalsClearInIdle : Obligations.StepKeepsLocalsClearInIdle := by
  unfold Obligations.StepKeepsLocalsClearInIdle
  intro s t _ h hidle
  have hp : s.phase = .respond :=
    phase_eq_respond_of_idle_mem_successors (hidle ▸ step_phase h)
  rw [step_respond hp] at h
  cases h
  exact ⟨rfl, rfl, rfl, rfl⟩

/-- Legality of the settings is a property of the settings alone. -/
theorem settingsLegal_of_settings_eq {s t : State} (hs : SettingsLegal s)
    (h : t.settings = s.settings) : SettingsLegal t := by
  obtain ⟨hc, hm, -⟩ := Settings.mk.inj h
  rwa [SettingsLegal, hc, hm]

/-- Settles O6: a step keeps the settings or latches a legal model. -/
theorem stepKeepsSettingsLegal : Obligations.StepKeepsSettingsLegal := by
  unfold Obligations.StepKeepsSettingsLegal
  intro s t hs h
  rcases step_settings h with hkeep | ⟨-, m, v, hm, hlatch⟩
  · exact settingsLegal_of_settings_eq hs hkeep
  · obtain ⟨hc, hmodel, -⟩ := Settings.mk.inj hlatch
    rw [SettingsLegal, hc, hmodel, if_pos rfl]
    rcases hm with rfl | rfl | rfl
    · exact .inl rfl
    · exact .inr (.inl rfl)
    · exact .inr (.inr rfl)

/-- Settles O7: a step keeps `STATUS`, clears it, or latches the code of an error. -/
theorem stepKeepsStatusLegal : Obligations.StepKeepsStatusLegal := by
  unfold Obligations.StepKeepsStatusLegal
  intro s t hs h
  rcases step_status h with heq | heq | ⟨e, heq⟩
  · rwa [StatusLegal, heq]
  · rw [StatusLegal, heq]; decide
  · rw [StatusLegal, heq]; exact errorCode_le_five e

/-! ## The trace as a sequence of calls -/

/-- The monitor holds the configuration of the state and the stage its registers show. -/
def Tracks (s : State) (M : Monitor) : Prop :=
  M.settings = s.settings ∧ stageAgrees s M.stage

/-- A state conforms when its trace, read by the monitor, ends in a monitor that tracks it. -/
theorem conforms_iff {s : State} :
    Conforms s ↔ ∃ v M, onTrace (Monitor.unconfigured v) s.trace = some M ∧ Tracks s M :=
  Iff.rfl

/-- What an error delivers (`30_encoding.md` R53). -/
theorem response_of_error {s : State} {e : Err} (h : s.status = errorCode e) :
    response s = errorResponse (errorCode e) := by
  rw [response, if_neg (h ▸ errorCode_ne_zero e), h]

/-- What a success delivers (`30_encoding.md` R53). -/
theorem response_of_ok {s : State} (h : s.status = 0) :
    response s = okResponse s.op s.rsp s.vref :=
  if_pos h

/-- The call function leaves a read that passes its checks to the bus, so the monitor waits for
chip-select (`41_read.md` R91). -/
theorem onAccept_of_read {S : Settings} {r : Request} {c : Byte} {m : Mode}
    (ht : r.target = some (c, m)) (h : call S r none = none) :
    onAccept S r = ⟨S, .selecting r (cmdFrame m (c.setWidth 3))⟩ := by
  simp only [onAccept, h, ht]

/-- A request that the call function ends at acceptance leaves its response due. -/
theorem onAccept_of_ended {S S' : Settings} {r : Request} {rsp : Response}
    (h : call S r none = some (endedAtAcceptance S' r rsp)) : onAccept S r = ⟨S', .due rsp⟩ := by
  simp only [onAccept, h, endedAtAcceptance]

/-- The monitor on `Accept` tracks the acceptance of a request by a block with clear registers. -/
theorem tracks_accepted (r : Request) {s : State} (hclear : LocalsClear s) :
    Tracks (accepted r s) (onAccept s.settings r) := by
  obtain ⟨-, -, -, hrsp⟩ := hclear
  rcases accepted_cases r s with ⟨e, he, h, hcall⟩ | ⟨m, v, -, -, -, h, hcall⟩ |
    ⟨c, m, ht, -, -, -, h, hcall⟩
  · rw [h, onAccept_of_ended (hcall none)]
    exact ⟨rfl, errorPhase_eq_respond he, response_of_error rfl⟩
  · rw [h, onAccept_of_ended (hcall none)]
    exact ⟨rfl, rfl, rfl⟩
  · rw [h, onAccept_of_read ht (hcall none)]
    exact ⟨rfl, rfl, rfl, rfl, rfl, hrsp⟩

/-- One step is one event of the monitor: from a monitor that tracks the state before, the event the
step appends leads to one that tracks the state after. The stage of the monitor fixes the phase,
hence the rule of `41_read.md` R75 to R83 that the step takes. -/
theorem step_tracks {s t : State} {M : Monitor} (hM : Tracks s M) (h : step s = .next t) :
    ∃ e M', t.trace = s.trace ++ [e] ∧ onEvent M e = some M' ∧ Tracks t M' := by
  obtain ⟨S, stage⟩ := M
  obtain ⟨rfl, hstage⟩ := hM
  cases stage with
  | outside =>
    obtain ⟨hp, hclear⟩ := hstage
    cases hr : s.requests with
    | nil => rw [step_idle_nil hp hr] at h; cases h
    | cons p rest =>
      rw [step_idle hp hr] at h
      cases h
      exact ⟨.accept p.decoded, _, accepted_trace _ _, rfl,
        tracks_accepted p.decoded (s := { s with requests := rest }) hclear⟩
  | selecting r f =>
    obtain ⟨hp, hregs⟩ := hstage
    rw [step_select hp] at h
    cases h
    exact ⟨.csLow, _, rfl, rfl, rfl, rfl, hregs⟩
  | low r f =>
    obtain ⟨hp, hop, hcmd, hclear⟩ := hstage
    rw [step_start hp] at h
    cases h
    exact ⟨.xferStart s.cmd, _, rfl, if_pos hcmd, rfl, rfl, hop, hclear⟩
  | asked r =>
    obtain ⟨hp, hop, hstatus, -⟩ := hstage
    rw [step_wait hp] at h
    rcases waitStep_cases h with ⟨f, rest, -, rfl⟩ | ⟨rest, -, rfl⟩
    · refine ⟨.xferOk f, _, rfl, rfl, rfl, rfl, ?_⟩
      rw [← hop]
      exact response_of_ok hstatus
    · exact ⟨.xferErr, _, rfl, rfl, rfl, rfl, response_of_error rfl⟩
  | answered rsp =>
    obtain ⟨hp, hrsp⟩ := hstage
    rw [step_release hp] at h
    cases h
    exact ⟨.csHigh, _, rfl, rfl, rfl, rfl, hrsp⟩
  | due rsp =>
    obtain ⟨hp, hrsp⟩ := hstage
    rw [step_respond hp] at h
    cases h
    exact ⟨.respond (response s), _, rfl, if_pos hrsp, rfl, rfl, rfl, rfl, rfl, rfl⟩

/-- Settles O11: the monitor reads the event the step appends and tracks the state after it. -/
theorem stepKeepsTraceConforming : Obligations.StepKeepsTraceConforming := by
  unfold Obligations.StepKeepsTraceConforming
  intro s t hs h
  obtain ⟨v, M, htrace, hM⟩ := conforms_iff.1 hs
  obtain ⟨e, M', he, hnext, hM'⟩ := step_tracks hM h
  refine conforms_iff.2 ⟨v, M', ?_, hM'⟩
  rw [he, onTrace_append, htrace]
  exact hnext

/-! ## Reset -/

/-- Settles O1: the table of R27 is `State.reset`, and the ports are idle ones. -/
theorem resetLeavesSpecValues : Obligations.ResetLeavesSpecValues :=
  ⟨rfl, rfl, rfl, rfl, rfl, rfl, rfl, rfl, rfl, rfl, rfl, rfl,
    Ports.rsp_of_ne_respond (by decide), Ports.xferOut_of_ne_start (by decide)⟩

/-- The empty trace conforms: the monitor stands between two calls, as the idle block does. -/
theorem conforms_reset : Conforms State.reset :=
  ⟨.zero, _, rfl, rfl, rfl, rfl, rfl, rfl, rfl⟩

/-- Settles O2: the register invariants and the counts are closed facts about `State.reset`. -/
theorem resetMeetsInvariants : Obligations.ResetMeetsInvariants :=
  ⟨rfl, fun _ => ⟨rfl, rfl, rfl, rfl⟩, rfl, by decide, by decide, rfl, rfl, conforms_reset⟩

end Sys2Proof.Safety

/-! ## Frames on the wire -/

namespace Sys2Proof.Machine

/-- The arithmetic of `30_encoding.md` R55 places the fields of R54. -/
theorem cmdFrame_eq_fields (m : Mode) (c : Channel) :
    cmdFrame m c = 0x01#8 ++ m.bit ++ c ++ 0#4 ++ Config.pad2 := by
  cases m
  all_goals revert c; decide

/-- The arithmetic of `41_read.md` R84 takes bits 9:0 of the frame. -/
theorem dec10_eq_extractLsb' (f : Frame) : dec10 f = f.extractLsb' 0 10 := by
  apply BitVec.eq_of_getLsbD_eq
  intro i hi
  unfold dec10 frameByte1 frameByte2
  rw [BitVec.getLsbD_or, BitVec.getLsbD_shiftLeft]
  interval_cases i <;> simp

/-- In numbers: the low two bits of byte 1 above byte 2. -/
theorem dec10_toNat (f : Frame) :
    (dec10 f).toNat = 256 * ((frameByte1 f).toNat % 4) + (frameByte2 f).toNat := by
  rw [dec10_eq_extractLsb', frameByte1, frameByte2]
  simp only [BitVec.extractLsb'_toNat, Nat.shiftRight_eq_div_pow]
  omega

/-- A code is the decode of the frame that carries it below zeros. -/
theorem dec10_setWidth (v : Raw) : dec10 (v.setWidth 24) = v := by
  rw [dec10_eq_extractLsb', ← BitVec.setWidth_eq_extractLsb' (by decide),
    BitVec.setWidth_setWidth_of_le _ (by decide), BitVec.setWidth_eq]

/-- Settles O52: bits 9:0 as a field, in numbers, and with a frame for every code. -/
theorem decodeTakesLowTenBits : Obligations.DecodeTakesLowTenBits :=
  ⟨fun f => ⟨dec10_eq_extractLsb' f, dec10_toNat f⟩, fun v => ⟨v.setWidth 24, dec10_setWidth v⟩⟩

/-- The bits of a command frame in the order of the wire (`20_memory.md` R37). -/
theorem bitAt_cmdFrame (m : Mode) (c : Channel) {t : Nat} (h : t < 24) :
    Wire.bitAt (cmdFrame m c) t =
      (t == 7 || (t == 8 && m.bit == 1) || (t == 9 && c.getLsbD 2) || (t == 10 && c.getLsbD 1) ||
        (t == 11 && c.getLsbD 0)) := by
  have hmode : m.bit.getLsbD 0 = (m.bit == 1) := by cases m <;> rfl
  rw [Wire.bitAt, cmdFrame_eq_fields, Config.pad2]
  simp only [BitVec.getLsbD_append]
  interval_cases t <;> simp [hmode, -BitVec.getLsbD_eq_getElem]

/-- The code's bits come last on the wire, its bit 9 first (`20_memory.md` R37). -/
theorem dec10_getLsbD (f : Frame) {t : Nat} (hlo : 14 ≤ t) (hhi : t < 24) :
    (dec10 f).getLsbD (9 - (t - 14)) = Wire.bitAt f t := by
  have hcode : 9 - (t - 14) < 10 := by omega
  have hwire : 0 + (9 - (t - 14)) = 23 - t := by omega
  rw [dec10_eq_extractLsb', BitVec.getLsbD_extractLsb', hwire, decide_eq_true hcode,
    Bool.true_and, Wire.bitAt]

/-- Settles O56: the bits sent and the bits received. -/
theorem wireBitsFollowTheFrame : Obligations.WireBitsFollowTheFrame :=
  ⟨fun m c _ => bitAt_cmdFrame m c, fun f _ => dec10_getLsbD f⟩

/-! ## The channels of each model -/

namespace ChannelSpace

/-- A model can send two frames for each channel it admits (`42_wire_commands.md` R110). -/
theorem sendable_length (model : BitVec 4) :
    (sendable model).length = 2 * (usable model).length := by
  rw [sendable, List.length_append, List.length_map, List.length_map, two_mul]

/-- Settles O57: the tables are evaluated row by row. -/
theorem channelsAndPairsByModel : Obligations.ChannelsAndPairsByModel :=
  ⟨rfl, rfl, rfl, rfl, by decide, rfl, sendable_length 4, sendable_length 8⟩

end ChannelSpace

end Sys2Proof.Machine

/-! ## One exchange for each time chip-select goes low -/

namespace Sys2Proof.Safety

open Sys2Proof.Machine

theorem countCsLow_append (t u : List Event) :
    countCsLow (t ++ u) = countCsLow t + countCsLow u := by
  simp only [countCsLow, List.filter_append, List.length_append]

theorem countXferStart_append (t u : List Event) :
    countXferStart (t ++ u) = countXferStart t + countXferStart u := by
  simp only [countXferStart, List.filter_append, List.length_append]

/-- The exchanges due, chip-select being low and the frame not yet handed over
(`41_read.md` R90 (b)): 1 in `START`, else 0. -/
def exchangesDue (p : Phase) : Nat := if p = .start then 1 else 0

/-- The counts stay in step when the event and the phase change agree on what falls due: a `CsLow`
makes an exchange due, an `XferStart` starts the one due. -/
theorem OneExchangePerSelect.of_event {s t : State} {e : Event} (hs : OneExchangePerSelect s)
    (htrace : t.trace = s.trace ++ [e])
    (hdue : countCsLow [e] + exchangesDue s.phase = countXferStart [e] + exchangesDue t.phase) :
    OneExchangePerSelect t := by
  have hs' : countCsLow s.trace = countXferStart s.trace + exchangesDue s.phase := hs
  have ht : countCsLow t.trace = countXferStart t.trace + exchangesDue t.phase := by
    rw [htrace, countCsLow_append, countXferStart_append]
    omega
  exact ht

/-- An acceptance leaves no exchange due. -/
theorem exchangesDue_accepted (r : Request) (s : State) :
    exchangesDue (accepted r s).phase = 0 := by
  rcases accepted_phase r s with h | h
  all_goals rw [h]; rfl

/-- Settles O10: SELECT makes an exchange due, START starts it, and no other step appends a counted
event or enters or leaves `START`. -/
theorem stepKeepsOneExchangePerSelect : Obligations.StepKeepsOneExchangePerSelect := by
  unfold Obligations.StepKeepsOneExchangePerSelect
  intro s t hs h
  rcases step_cases h with ⟨p, rest, hp, -, rfl⟩ | ⟨hp, rfl⟩ | ⟨hp, rfl⟩ | ⟨f, rest, hp, -, rfl⟩ |
    ⟨rest, hp, -, rfl⟩ | ⟨hp, rfl⟩ | ⟨hp, rfl⟩
  case inl => exact hs.of_event (accepted_trace _ _) (by rw [hp, exchangesDue_accepted]; rfl)
  all_goals exact hs.of_event rfl (by rw [hp]; rfl)

end Sys2Proof.Safety

/-! ## The fields of an encoded word -/

namespace Sys2Proof

/-- A mode bit reads back as its mode (`30_encoding.md` R51, R54). -/
@[simp] theorem modeOfBit_bit (m : Mode) : modeOfBit (m.bit.getLsbD 0) = m := by
  cases m <;> rfl

/-- A word that passes both checks decodes to the operation of its mode, channel and pad byte
(`30_encoding.md` R54). -/
theorem decodeFrame_of_checks {f : Frame} (h0 : frameByte0 f = 0x01)
    (hn : f.extractLsb' 8 4 = 0) :
    decodeFrame f = .ok (frameInstr (frameMode f) (frameChannel f) (frameByte2 f)) := by
  rw [decodeFrame, if_neg (not_not.2 h0), if_neg (not_not.2 hn)]

/-- The command frame of a mode, a channel and a pad byte, field by field (`30_encoding.md` R54). -/
def frameOfFields (m : Mode) (c : Channel) (pad : Byte) : Frame :=
  0x01#8 ++ m.bit ++ c ++ 0#4 ++ pad

section
variable (m : Mode) (c : Channel) (pad : Byte)

@[simp] theorem frameByte0_frameOfFields : frameByte0 (frameOfFields m c pad) = 0x01 := by
  rw [frameByte0, frameOfFields]
  simp (disch := decide) only [BitVec.extractLsb'_append_eq_of_le]
  rfl

@[simp] theorem nibble_frameOfFields : (frameOfFields m c pad).extractLsb' 8 4 = 0 := by
  rw [frameOfFields, BitVec.extractLsb'_append_eq_of_le (by decide)]
  exact BitVec.extractLsb'_append_eq_right

@[simp] theorem frameMode_frameOfFields : frameMode (frameOfFields m c pad) = m := by
  rw [frameMode, frameOfFields]
  simp only [BitVec.getLsbD_append]
  exact modeOfBit_bit m

@[simp] theorem frameChannel_frameOfFields : frameChannel (frameOfFields m c pad) = c := by
  rw [frameChannel, frameOfFields]
  simp (disch := decide) only [BitVec.extractLsb'_append_eq_of_le]
  exact BitVec.extractLsb'_append_eq_right

@[simp] theorem frameByte2_frameOfFields : frameByte2 (frameOfFields m c pad) = pad :=
  BitVec.extractLsb'_append_eq_right

/-- A command frame decodes to the operation of its fields (`30_encoding.md` R54). -/
theorem decodeFrame_frameOfFields :
    decodeFrame (frameOfFields m c pad) = .ok (frameInstr m c pad) := by
  simp [decodeFrame_of_checks]

/-- A command frame comes back from its encoding, pad byte included. -/
theorem decode_encode_frameInstr :
    decode (encode (frameInstr m c pad)) = .ok (frameInstr m c pad) := by
  rw [encode_frameInstr]
  exact decodeFrame_frameOfFields m c pad

end

section
variable (op : BitVec 2) (s : BitVec 1) (arg : Byte)

@[simp] theorem reqOp_requestWord : reqOp (requestWord op s arg) = op := by
  rw [reqOp, requestWord]
  simp (disch := decide) only [BitVec.extractLsb'_append_eq_of_le]
  exact BitVec.extractLsb'_eq_self

@[simp] theorem reqMode_requestWord (m : Mode) : reqMode (requestWord op m.bit arg) = m := by
  rw [reqMode, requestWord]
  simp only [BitVec.getLsbD_append]
  exact modeOfBit_bit m

@[simp] theorem reqArg_requestWord : reqArg (requestWord op s arg) = arg :=
  BitVec.extractLsb'_append_eq_right

end

/-- Bit 15 of a request word is the high bit of `op` (`30_encoding.md` R51). -/
theorem bit15_eq_reqOp (w : ReqWord) : w.getLsbD 15 = (reqOp w).getLsbD 1 := by
  simp [reqOp]

/-- Bit 14 of a request word is the low bit of `op` (`30_encoding.md` R51). -/
theorem bit14_eq_reqOp (w : ReqWord) : w.getLsbD 14 = (reqOp w).getLsbD 0 := by
  simp [reqOp]

section
variable {w : ReqWord}

theorem decodeRequest_config (h : reqOp w = 0b00) : decodeRequest w = .config (reqArg w) := by
  simp only [decodeRequest, bit15_eq_reqOp, bit14_eq_reqOp, h]
  rfl

theorem decodeRequest_readraw (h : reqOp w = 0b01) :
    decodeRequest w = .readraw (reqArg w) (reqMode w) := by
  simp only [decodeRequest, bit15_eq_reqOp, bit14_eq_reqOp, h]
  rfl

theorem decodeRequest_read (h : reqOp w = 0b10) :
    decodeRequest w = .read (reqArg w) (reqMode w) := by
  simp only [decodeRequest, bit15_eq_reqOp, bit14_eq_reqOp, h]
  rfl

theorem decodeRequest_readv (h : reqOp w = 0b11) : decodeRequest w = .readv (reqArg w) := by
  simp only [decodeRequest, bit15_eq_reqOp, bit14_eq_reqOp, h]
  rfl

end

/-- Settles O23: a request word gives back its fields, and a command frame is the `frameInstr` of its
mode and channel, decoded from the fields. -/
theorem decodeEncodeAgree : Obligations.DecodeEncodeAgree := by
  unfold Obligations.DecodeEncodeAgree
  intro i
  cases i with
  | config m => simp [encode, decode, decodeRequest_config]
  | readraw c m => simp [encode, decode, decodeRequest_readraw]
  | read c m => simp [encode, decode, decodeRequest_read]
  | readv c => simp [encode, decode, decodeRequest_readv]
  | sglCh0 p => exact decode_encode_frameInstr .singleEnded 0 p
  | sglCh1 p => exact decode_encode_frameInstr .singleEnded 1 p
  | sglCh2 p => exact decode_encode_frameInstr .singleEnded 2 p
  | sglCh3 p => exact decode_encode_frameInstr .singleEnded 3 p
  | sglCh4 p => exact decode_encode_frameInstr .singleEnded 4 p
  | sglCh5 p => exact decode_encode_frameInstr .singleEnded 5 p
  | sglCh6 p => exact decode_encode_frameInstr .singleEnded 6 p
  | sglCh7 p => exact decode_encode_frameInstr .singleEnded 7 p
  | diffCh0 p => exact decode_encode_frameInstr .differential 0 p
  | diffCh1 p => exact decode_encode_frameInstr .differential 1 p
  | diffCh2 p => exact decode_encode_frameInstr .differential 2 p
  | diffCh3 p => exact decode_encode_frameInstr .differential 3 p
  | diffCh4 p => exact decode_encode_frameInstr .differential 4 p
  | diffCh5 p => exact decode_encode_frameInstr .differential 5 p
  | diffCh6 p => exact decode_encode_frameInstr .differential 6 p
  | diffCh7 p => exact decode_encode_frameInstr .differential 7 p

/-- Settles O22: each word is decoded. -/
theorem specWordsDecode : Obligations.SpecWordsDecode := by
  unfold Obligations.SpecWordsDecode
  decide

/-- Settles O25: the two checks of the decoder by name, and a word that passes both loses no bit. -/
theorem nonFramesAreRejectedByName : Obligations.NonFramesAreRejectedByName := by
  unfold Obligations.NonFramesAreRejectedByName
  refine fun f => ⟨fun h0 => if_pos h0, fun h0 hn => ?_, fun h0 hn => ?_⟩
  · rw [decodeFrame, if_neg (not_not.2 h0), if_pos hn]
  · have hd := decodeFrame_of_checks h0 hn
    exact ⟨_, hd, encode_of_decodeFrame hd⟩

end Sys2Proof

/-! ## The command built for a read -/

namespace Sys2Proof.Machine

/-- The built command is the frame of its mode and channel with the pad byte `PAD2`. -/
theorem cmdFrame_eq_frameOfFields (m : Mode) (c : Channel) :
    cmdFrame m c = frameOfFields m c Config.pad2 :=
  cmdFrame_eq_fields m c

/-- Byte 1 of the built command is that of `30_encoding.md` R55. -/
@[simp] theorem frameByte1_cmdFrame (m : Mode) (c : Channel) :
    frameByte1 (cmdFrame m c) = commandByte1 m c := by
  rw [frameByte1, cmdFrame, BitVec.extractLsb'_append_eq_of_le (by decide)]
  exact BitVec.extractLsb'_append_eq_right

/-- Byte 1 in numbers: the mode bit in bit 7, the channel in bits 6:4. -/
theorem commandByte1_toNat (m : Mode) (c : Channel) :
    (commandByte1 m c).toNat = 128 * m.bit.toNat + 16 * c.toNat := by
  cases m
  all_goals revert c; decide

/-- The built command as the formula of `30_encoding.md` R55 on the whole word. -/
theorem cmdFrame_eq_or (m : Mode) (c : Channel) :
    cmdFrame m c = 0x010000 ||| (m.bit.setWidth 24 <<< 15) ||| (c.setWidth 24 <<< 12) := by
  cases m
  all_goals revert c; decide

/-- Settles O24: the bytes and the decoded operation are those of the fields, which the arithmetic of
R55 places. -/
theorem builtCommandIsItsFrame : Obligations.BuiltCommandIsItsFrame := by
  unfold Obligations.BuiltCommandIsItsFrame
  refine fun m c => ⟨?_, ?_, ?_, cmdFrame_eq_or m c, ?_⟩
  · rw [cmdFrame_eq_frameOfFields, frameByte0_frameOfFields]
  · rw [frameByte1_cmdFrame, commandByte1_toNat]
  · rw [cmdFrame_eq_frameOfFields, frameByte2_frameOfFields, Config.pad2]
  · rw [cmdFrame_eq_frameOfFields, decodeFrame_frameOfFields, Config.pad2]

end Sys2Proof.Machine

/-! ## What a step sends and takes -/

namespace Sys2Proof.Machine

/-- The START step is the only one that hands a frame to the transport, and the frame is `CMD`
(`10_state.md` R22, `41_read.md` R79). -/
theorem step_xferStart {s t : State} {f : Frame} (h : step s = .next t)
    (ht : t.trace = s.trace ++ [.xferStart f]) : s.phase = .start ∧ s.cmd = f := by
  rcases step_cases h with ⟨p, rest, -, -, rfl⟩ | ⟨-, rfl⟩ | ⟨hp, rfl⟩ | ⟨g, rest, -, -, rfl⟩ |
    ⟨rest, -, -, rfl⟩ | ⟨-, rfl⟩ | ⟨-, rfl⟩
  case inl => cases List.append_cancel_left ((accepted_trace _ _).symm.trans ht)
  case inr.inr.inl => cases List.append_cancel_left ht; exact ⟨hp, rfl⟩
  all_goals cases List.append_cancel_left ht

/-- Settles O18: the frame sent is the `CMD` of a block in `START`, which `CommandAdmitted` speaks of. -/
theorem onlyAdmittedFramesAreSent : Obligations.OnlyAdmittedFramesAreSent := by
  unfold Obligations.OnlyAdmittedFramesAreSent
  intro s t f hadm h ht
  obtain ⟨hp, rfl⟩ := step_xferStart h ht
  exact hadm (.inr hp)

section
variable {p : PortRequest}

theorem decoded_config (h : reqOp p.word = 0b00) : p.decoded = .config (reqArg p.word) p.vref := by
  simp only [PortRequest.decoded, bit15_eq_reqOp, bit14_eq_reqOp, h]
  rfl

theorem decoded_readRaw (h : reqOp p.word = 0b01) :
    p.decoded = .readRaw (reqArg p.word) (reqMode p.word) := by
  simp only [PortRequest.decoded, bit15_eq_reqOp, bit14_eq_reqOp, h]
  rfl

theorem decoded_read (h : reqOp p.word = 0b10) :
    p.decoded = .read (reqArg p.word) (reqMode p.word) := by
  simp only [PortRequest.decoded, bit15_eq_reqOp, bit14_eq_reqOp, h]
  rfl

theorem decoded_readV (h : reqOp p.word = 0b11) : p.decoded = .readV (reqArg p.word) := by
  simp only [PortRequest.decoded, bit15_eq_reqOp, bit14_eq_reqOp, h]
  rfl

end

/-- All four values of `op` are used (`30_encoding.md` R52). -/
theorem op_cases (op : BitVec 2) : op = 0b00 ∨ op = 0b01 ∨ op = 0b10 ∨ op = 0b11 := by
  revert op
  decide

/-- The decoded request depends on `op` and `arg`, on `s` in `READRAW` and `READ` only, and on the
voltage in `CONFIG` only (`30_encoding.md` R57). -/
theorem decoded_congr {p q : PortRequest} (hop : reqOp p.word = reqOp q.word)
    (harg : reqArg p.word = reqArg q.word)
    (hmode : reqOp p.word = 0b01 ∨ reqOp p.word = 0b10 → reqMode p.word = reqMode q.word)
    (hvref : reqOp p.word = 0b00 → p.vref = q.vref) : p.decoded = q.decoded := by
  rcases op_cases (reqOp p.word) with h | h | h | h
  · rw [decoded_config h, decoded_config (hop ▸ h), harg, hvref h]
  · rw [decoded_readRaw h, decoded_readRaw (hop ▸ h), harg, hmode (.inl h)]
  · rw [decoded_read h, decoded_read (hop ▸ h), harg, hmode (.inr h)]
  · rw [decoded_readV h, decoded_readV (hop ▸ h), harg]

/-- Settles O26: the step accepts the decoded request, which no ignored bit reaches. -/
theorem ignoredRequestBitsDoNotMatter : Obligations.IgnoredRequestBitsDoNotMatter := by
  unfold Obligations.IgnoredRequestBitsDoNotMatter
  intro s p q rest hi hop harg hmode hvref
  rw [step_idle (s := { s with requests := p :: rest }) hi rfl,
    step_idle (s := { s with requests := q :: rest }) hi rfl, decoded_congr hop harg hmode hvref]

/-- A configured block refuses a channel not below its model (`41_read.md` R76). -/
theorem readError_outOfRange {b : Bool} {model : BitVec 4} {c : Byte} (hb : b = true)
    (h : model.toNat ≤ c.toNat) : readError b model c = some .channelOutOfRange := by
  cases he : readError b model c with
  | none => exact absurd (readError_none.1 he).2 (not_lt.2 h)
  | some e =>
    rcases readError_some he with ⟨-, hn⟩ | ⟨rfl, -⟩
    · rw [hb] at hn; cases hn
    · rfl

/-- A read refused by its checks, taken from the port of an idle block: `CMD` and chip-select are not
touched (`41_read.md` R75). -/
theorem whenAccepted_read_refused {s : State} {p : PortRequest} {rest : List PortRequest} {c : Byte}
    {e : Err} (hi : s.phase = .idle) (hr : s.requests = p :: rest)
    (he : readError s.configured s.model c = some e) (r : Request) (m : Mode) :
    whenAccepted s (fun _ s => acceptRead r c m s) =
      .next (raise e (emit (.accept r) { s with requests := rest, op := r.op })) :=
  (whenAccepted_idle _ hi hr).trans
    (congrArg _ (acceptRead_of_error (s := { s with requests := rest }) he))

/-- Settles O34: the channel check refuses each of the three reads. -/
theorem readRefusedOutOfRange : Obligations.ReadRefusedOutOfRange := by
  unfold Obligations.ReadRefusedOutOfRange
  intro s p rest c m hi hr hc hge
  have refused := whenAccepted_read_refused hi hr (readError_outOfRange hc hge)
  exact ⟨refused (.readRaw c m) m, refused (.read c m) m, refused (.readV c) .singleEnded⟩

end Sys2Proof.Machine

/-! ## The three reads as one call -/

namespace Sys2Proof.Machine

/-- What the transport reports of an exchange, as an event (`41_read.md` R80, R81). -/
def Answer.heard : Answer → Event
  | .ok f => .xferOk f
  | .err => .xferErr

/-- What a read `op` delivers on an answer (`41_read.md` R83). -/
def Answer.delivered (op : BitVec 2) (vref : Config.VoltT) : Answer → Response
  | .ok f => okResponse op f vref
  | .err => errorResponse (errorCode .transportError)

/-- The call function on the bus, for both kinds of answer (`41_read.md` R91). -/
theorem callOnBus_some (S : Settings) (r : Request) (sent : Frame) (a : Answer) :
    callOnBus S r sent (some a) =
      some ⟨S, a.delivered r.op S.vref,
        busEvents r sent a.heard (a.delivered r.op S.vref)⟩ := by
  cases a <;> rfl

/-- Two reads of one channel in one mode differ in the response only: a function that turns the data of
the one into the data of the other, and keeps errors, turns the one call into the other. -/
theorem callRead_response {φ : Response → Response} {S : Settings} {r r' : Request}
    (hok : ∀ f, okResponse r'.op f S.vref = φ (okResponse r.op f S.vref))
    (herr : ∀ e, φ (errorResponse (errorCode e)) = errorResponse (errorCode e))
    (c : Byte) (m : Mode) (a : Option Answer) :
    (call.callRead S r' c m a).map CallResult.response =
      (call.callRead S r c m a).map fun res => φ res.response := by
  unfold call.callRead
  cases readError S.configured S.model c with
  | some e => exact congrArg some (herr e).symm
  | none =>
    cases a with
    | none => rfl
    | some a =>
      rw [callOnBus_some, callOnBus_some]
      cases a with
      | ok f => exact congrArg some (hok f)
      | err => exact congrArg some (herr .transportError).symm

/-- Two reads of one channel in one mode keep the settings and have the same events on the bus. -/
theorem callRead_inner (S : Settings) (r r' : Request) (c : Byte) (m : Mode) (a : Option Answer) :
    (call.callRead S r' c m a).map (fun res => (res.settings, res.events.tail.dropLast)) =
      (call.callRead S r c m a).map fun res => (res.settings, res.events.tail.dropLast) := by
  unfold call.callRead
  cases readError S.configured S.model c with
  | some e => rfl
  | none =>
    cases a with
    | none => rfl
    | some a => rw [callOnBus_some, callOnBus_some]; rfl

/-- A response that carries a code, turned into one that carries the voltage; an error stays as it is
(`30_encoding.md` R63, `41_read.md` R88). -/
def Response.scaled (vref : Config.VoltT) (rsp : Response) : Response :=
  if rsp.status = 0 then { rsp with raw := 0, volt := vscale rsp.raw vref } else rsp

/-- The data of `READV` are those of `READ` scaled. -/
theorem okResponse_readV (f : Frame) (vref : Config.VoltT) :
    okResponse 0b11 f vref = (okResponse 0b10 f vref).scaled vref := rfl

/-- An error has nothing to scale. -/
theorem errorResponse_scaled (e : Err) (vref : Config.VoltT) :
    (errorResponse (errorCode e)).scaled vref = errorResponse (errorCode e) :=
  if_neg (errorCode_ne_zero e)

/-- Settles O55: each clause compares two reads of one channel in one mode, by their data
(`30_encoding.md` R53) and by their events. -/
theorem derivedReadsReduceReadraw : Obligations.DerivedReadsReduceReadraw := by
  unfold Obligations.DerivedReadsReduceReadraw
  intro S c m a
  refine ⟨?_, ?_, callRead_inner S _ _ c m a, callRead_inner S _ _ c .singleEnded a⟩
  · exact callRead_response (φ := fun rsp => { rsp with frame := 0 }) (fun _ => rfl)
      (fun _ => rfl) c m a
  · exact callRead_response (r := .read c .singleEnded) (r' := .readV c)
      (fun f => okResponse_readV f S.vref) (fun e => errorResponse_scaled e S.vref) c .singleEnded a

/-! ## A read from acceptance to response -/

/-- The two steps that end an exchange: chip-select goes high, then the response is delivered and the
exchange-local registers are cleared (`41_read.md` R82, R83). -/
theorem run_release {s : State} (hp : s.phase = .release) :
    core.run 2 s = .next
      { s with
        csN := true, op := 0, status := 0, cmd := 0, rsp := 0, phase := .idle
        trace := s.trace ++ [.csHigh, .respond (response s)] } := by
  rw [List.append_cons]
  exact (run_succ 1 (step_release hp)).trans (run_succ 0 (step_respond rfl))

/-- An answer in `WAIT` is reported in `TRACE`, leads to `RELEASE`, and fixes what is then delivered
(`41_read.md` R80, R81, R83). -/
theorem step_wait_answered {s : State} {a : Answer} {rest : List Answer} (hp : s.phase = .wait)
    (hst : s.status = 0) (ha : s.answers = a :: rest) :
    ∃ (status : BitVec 3) (rsp : Frame),
      step s = .next
        { emit a.heard s with status := status, rsp := rsp, phase := .release, answers := rest } ∧
      response { s with status := status, rsp := rsp } = a.delivered s.op s.vref := by
  rw [step_wait hp, waitStep, ha]
  cases a with
  | ok f => exact ⟨s.status, f, rfl, if_pos hst⟩
  | err => exact ⟨errorCode .transportError, s.rsp, rfl, rfl⟩

/-- The five steps of an exchange from SELECT to RESPOND, the transport having an answer
(`41_read.md` R78 to R83). -/
theorem run_exchange {s : State} {a : Answer} {rest : List Answer} (hp : s.phase = .select)
    (hst : s.status = 0) (ha : s.answers = a :: rest) :
    core.run 5 s = .next
      { s with
        csN := true, op := 0, status := 0, cmd := 0, rsp := 0, phase := .idle, answers := rest
        trace := s.trace ++ [.csLow, .xferStart s.cmd, a.heard, .csHigh,
          .respond (a.delivered s.op s.vref)] } := by
  obtain ⟨status, rsp, hwait, hrsp⟩ := step_wait_answered
    (s := { emit (.xferStart s.cmd) (selectStep s) with phase := .wait }) rfl hst ha
  have hrun := (run_succ 4 (step_select hp)).trans ((run_succ 3 (step_start rfl)).trans
    ((run_succ 2 hwait).trans (run_release rfl)))
  have hdelivered : a.delivered s.op s.vref = _ := hrsp.symm
  rw [hrun, hdelivered]
  simp [emit, selectStep, response]

/-- A read builds its command when its checks find no error (`41_read.md` R75, R77). -/
theorem acceptRead_of_no_error {r : Request} {c : Byte} {m : Mode} {s : State}
    (h : readError s.configured s.model c = none) :
    acceptRead r c m s =
      { emit (.accept r) s with
        op := r.op, cmd := cmdFrame m (c.setWidth 3), status := 0, phase := .select } := by
  simp only [acceptRead, h, emit]

/-- The step of an idle block on a read that passes its checks (`41_read.md` R75, R77). -/
theorem step_valid_read {s : State} {p : PortRequest} {rest : List PortRequest} {c : Byte} {m : Mode}
    (hi : s.phase = .idle) (hr : s.requests = p :: rest) (ht : p.decoded.target = some (c, m))
    (hc : s.configured = true) (hlt : c.toNat < s.model.toNat) :
    step s = .next
      { emit (.accept p.decoded) s with
        requests := rest, op := p.decoded.op, cmd := cmdFrame m (c.setWidth 3), status := 0
        phase := .select } := by
  obtain ⟨-, hread, -⟩ := accepted_of_target ht { s with requests := rest }
  rw [step_idle hi hr, hread]
  exact congrArg _ (acceptRead_of_no_error (readError_none.2 ⟨hc, hlt⟩))

/-- A block at rest performs a valid read whose exchange is answered in six steps, with the events of
the call function (`41_read.md` R91), and is at rest again. -/
theorem run_read {s : State} {p : PortRequest} {rest : List PortRequest} {c : Byte} {m : Mode}
    {a : Answer} {answers : List Answer} (hs : Safety.AtRest s) (hr : s.requests = p :: rest)
    (ht : p.decoded.target = some (c, m)) (hc : s.configured = true)
    (hlt : c.toNat < s.model.toNat) (ha : s.answers = a :: answers) :
    core.run 6 s = .next
      { s with
        requests := rest, answers := answers
        trace := s.trace ++ busEvents p.decoded (cmdFrame m (c.setWidth 3)) a.heard
          (a.delivered p.decoded.op s.vref) } := by
  obtain ⟨hp, hcs, hop, hst, hcmd, hrsp⟩ := hs
  have hrun := (run_succ 5 (step_valid_read hp hr ht hc hlt)).trans (run_exchange rfl rfl ha)
  refine hrun.trans ?_
  simp [busEvents, hp, hcs, hop, hst, hcmd, hrsp]

/-- A call on the bus ends with its response. -/
theorem getLast?_append_busEvents (t : List Event) (r : Request) (sent : Frame) (heard : Event)
    (rsp : Response) : (t ++ busEvents r sent heard rsp).getLast? = some (.respond rsp) := by
  simp [busEvents]

/-- `READ` and `READV` use the decoded code only (`41_read.md` R86, R87). -/
theorem okResponse_congr {op : BitVec 2} (hop : op = 0b10 ∨ op = 0b11) {f g : Frame}
    (h : dec10 f = dec10 g) (vref : Config.VoltT) : okResponse op f vref = okResponse op g vref := by
  rcases hop with rfl | rfl
  all_goals simp only [okResponse, h]; rfl

/-- Settles O53: both runs end with the response to the one code that bits 9:0 hold. -/
theorem ignoredResponseBitsDoNotMatter : Obligations.IgnoredResponseBitsDoNotMatter := by
  unfold Obligations.IgnoredResponseBitsDoNotMatter
  intro s p rest c m f g answers hs hr hop ht hc hlt hfg
  have hcode : dec10 f = dec10 g := by rw [dec10_eq_extractLsb', dec10_eq_extractLsb', hfg]
  have hf := run_read (s := { s with answers := .ok f :: answers }) hs hr ht hc hlt rfl
  have hg := run_read (s := { s with answers := .ok g :: answers }) hs hr ht hc hlt rfl
  refine ⟨_, _, hf, hg, ?_⟩
  rw [getLast?_append_busEvents, getLast?_append_busEvents]
  exact congrArg (fun rsp => some (Event.respond rsp)) (okResponse_congr hop hcode s.vref)

end Sys2Proof.Machine

/-! ## `CONFIG` and the operations refused at acceptance -/

namespace Sys2Proof.Machine

/-- The state check of `CONFIG` comes first, so that the model does not matter
(`60_exceptions.md` R118). -/
theorem configError_configured {b : Bool} (h : b = true) (m : Byte) :
    configError b m = some .alreadyConfigured := if_pos h

/-- An unconfigured block refuses every model but 2, 4 and 8 (`40_config.md` R71). -/
theorem configError_illegal {b : Bool} {m : Byte} (hb : b = false)
    (hm : ¬(m = 2 ∨ m = 4 ∨ m = 8)) : configError b m = some .invalidModel := by
  cases he : configError b m with
  | none => exact absurd (configError_none.1 he).2 hm
  | some e =>
    rcases configError_some he with ⟨-, hc⟩ | ⟨rfl, -⟩
    · rw [hb] at hc; cases hc
    · rfl

/-- No check of `CONFIG` finds an error of the transport (`60_exceptions.md` R115). -/
theorem configError_ne_transportError {b : Bool} {m : Byte} {e : Err}
    (h : configError b m = some e) : e ≠ .transportError := by
  rcases configError_some h with ⟨rfl, -⟩ | ⟨rfl, -⟩
  all_goals decide

/-- No check of a read finds an error of the transport (`60_exceptions.md` R115). -/
theorem readError_ne_transportError {b : Bool} {model : BitVec 4} {c : Byte} {e : Err}
    (h : readError b model c = some e) : e ≠ .transportError := by
  rcases readError_some h with ⟨rfl, -⟩ | ⟨rfl, -⟩
  all_goals decide

/-- `CONFIG` raises the error its checks find (`40_config.md` R70). -/
theorem acceptConfig_of_error {m : Byte} {v : Config.VoltT} {s : State} {e : Err}
    (h : configError s.configured m = some e) :
    acceptConfig m v s = raise e (emit (.accept (.config m v)) { s with op := 0 }) := by
  simp only [acceptConfig, h]

/-- A `CONFIG` refused by its checks, taken from the port of an idle block: no setting is touched
(`40_config.md` R70). -/
theorem exec_config_refused {s : State} {p : PortRequest} {rest : List PortRequest} {m : Byte}
    {e : Err} (hi : s.phase = .idle) (hr : s.requests = p :: rest)
    (he : configError s.configured m = some e) :
    exec (.config m) s =
      .next (raise e (emit (.accept (.config m p.vref)) { s with requests := rest, op := 0 })) :=
  (whenAccepted_idle _ hi hr).trans
    (congrArg _ (acceptConfig_of_error (s := { s with requests := rest }) he))

/-- Settles O28: the model check refuses. -/
theorem configRefusesIllegalModel : Obligations.ConfigRefusesIllegalModel := by
  unfold Obligations.ConfigRefusesIllegalModel
  intro s p rest m hi hr hc h2 h4 h8
  exact exec_config_refused hi hr
    (configError_illegal hc (not_or.2 ⟨h2, not_or.2 ⟨h4, h8⟩⟩))

/-- Settles O29: the state check refuses. -/
theorem configRefusedWhenConfigured : Obligations.ConfigRefusedWhenConfigured :=
  fun _ _ _ m hi hr hc => exec_config_refused hi hr (configError_configured hc m)

/-- The legal models as numbers (`40_config.md` R71). -/
theorem legalModel_iff_toNat (m : Byte) :
    (m = 2 ∨ m = 4 ∨ m = 8) ↔ (m.toNat = 2 ∨ m.toNat = 4 ∨ m.toNat = 8) := by
  simp only [← BitVec.toNat_inj]
  rfl

/-- Settles O30: a legal model is latched, any other is refused by the model check. -/
theorem modelLegalExactlyTwoFourEight : Obligations.ModelLegalExactlyTwoFourEight := by
  unfold Obligations.ModelLegalExactlyTwoFourEight
  intro s p rest m hi hr hc
  rw [← legalModel_iff_toNat]
  by_cases hm : m = 2 ∨ m = 4 ∨ m = 8
  · exact ⟨_, configLatchesLegalModel s p rest m hi hr hc hm, fun _ => ⟨rfl, rfl⟩, absurd hm⟩
  · exact ⟨_, exec_config_refused hi hr (configError_illegal hc hm), fun h => absurd h hm,
      fun _ => ⟨hc, rfl⟩⟩

/-- Settles O31: `CONFIG` is refused, latches the settings, or is not taken. -/
theorem configFrameUnchanged : Obligations.ConfigFrameUnchanged := by
  unfold Obligations.ConfigFrameUnchanged
  intro m s t h
  rcases whenAccepted_cases (s := s) h with ⟨p, rest, -, -, rfl⟩ | ⟨-, rfl⟩
  · rcases acceptConfig_cases m p.vref { s with requests := rest } with ⟨e, -, hacc⟩ | ⟨-, hacc⟩
    · rw [hacc]; exact ⟨rfl, rfl, rfl, rfl, rfl, List.prefix_append _ _, id⟩
    · rw [hacc]; exact ⟨rfl, rfl, rfl, rfl, rfl, List.prefix_append _ _, fun _ => rfl⟩
  · exact ⟨rfl, rfl, rfl, rfl, rfl, List.prefix_rfl, id⟩

/-- A block at rest answers a request refused at acceptance in two steps, with the code of the error
and no bus activity, and is at rest again (`60_exceptions.md` R117, R120). -/
theorem run_refused {s : State} {p : PortRequest} {rest : List PortRequest} {e : Err}
    (hs : Safety.AtRest s) (hr : s.requests = p :: rest) (he : e ≠ .transportError)
    (hacc : accepted p.decoded { s with requests := rest } =
      raise e (emit (.accept p.decoded) { s with requests := rest, op := p.decoded.op })) :
    core.run 2 s = .next
      { s with
        requests := rest
        trace := s.trace ++ [.accept p.decoded, .respond (errorResponse (errorCode e))] } := by
  obtain ⟨hp, -, hop, hst, hcmd, hrsp⟩ := hs
  have haccept := (step_idle hp hr).trans (congrArg _ hacc)
  have hrun := (run_succ 1 haccept).trans (run_succ 0 (step_respond (errorPhase_eq_respond he)))
  rw [hrun, respondStep, Safety.response_of_error rfl]
  simp [Host.Core.run, emit, raise, hp, hop, hst, hcmd, hrsp]

/-- Settles O39: for both kinds of operation, acceptance raises the error its checks find. -/
theorem refusedOperationAnswersAtOnce : Obligations.RefusedOperationAnswersAtOnce := by
  unfold Obligations.RefusedOperationAnswersAtOnce
  intro s p rest e hs hr hrefused
  rcases hrefused with ⟨m, v, hd, he⟩ | ⟨c, m, ht, he⟩
  · refine run_refused hs hr (configError_ne_transportError he) ?_
    rw [hd]
    exact acceptConfig_of_error he
  · obtain ⟨-, hread, -⟩ := accepted_of_target ht { s with requests := rest }
    exact run_refused hs hr (readError_ne_transportError he)
      (hread.trans (acceptRead_of_error he))

end Sys2Proof.Machine

/-! ## The sequencer's steps -/

namespace Sys2Proof.Machine

/-- Settles O45: `step_select` with the SELECT step's fields. -/
theorem selectStepDrivesChipSelectLow : Obligations.SelectStepDrivesChipSelectLow :=
  fun _ h => step_select h

/-- WAIT-OK latches the received bytes (`41_read.md` R80). -/
theorem step_wait_ok {s : State} {f : Frame} {rest : List Answer} (hp : s.phase = .wait)
    (ha : s.answers = .ok f :: rest) :
    step s = .next { emit (.xferOk f) s with rsp := f, phase := .release, answers := rest } := by
  rw [step_wait hp, waitStep, ha]

/-- WAIT-ERR raises the transport's error (`41_read.md` R81). -/
theorem step_wait_err {s : State} {rest : List Answer} (hp : s.phase = .wait)
    (ha : s.answers = .err :: rest) :
    step s = .next (raise .transportError (emit .xferErr { s with answers := rest })) := by
  rw [step_wait hp, waitStep, ha]

/-- With no answer `WAIT` has no step (`70_reset_and_hazards.md` R137). -/
theorem step_wait_nil {s : State} (hp : s.phase = .wait) (ha : s.answers = []) :
    step s = .fault .awaitingTransport := by
  rw [step_wait hp, waitStep, ha]

/-- Settles O47, by the transport's answer. -/
theorem waitStepTakesTheAnswer : Obligations.WaitStepTakesTheAnswer :=
  fun _ hp => ⟨fun _ _ => step_wait_ok hp, fun _ => step_wait_err hp, step_wait_nil hp⟩

/-- An answered exchange leaves `WAIT` (`41_read.md` R80, R81). -/
theorem exists_step_wait {s : State} {a : Answer} {rest : List Answer} (hp : s.phase = .wait)
    (ha : s.answers = a :: rest) : ∃ t, step s = .next t := by
  cases a with
  | ok f => exact ⟨_, step_wait_ok hp ha⟩
  | err => exact ⟨_, step_wait_err hp ha⟩

/-- `RELEASE` is the only successor of `WAIT` (`10_state.md` R16). -/
theorem phase_of_step_wait {s t : State} (hp : s.phase = .wait) (h : step s = .next t) :
    t.phase = .release := by
  have hmem := step_phase h
  rw [hp] at hmem
  exact List.mem_singleton.1 hmem

/-- Settles O48: the RELEASE step does not look at `STATUS`, and the phase table has one way out of
`WAIT`. -/
theorem releaseStepDrivesChipSelectHigh : Obligations.ReleaseStepDrivesChipSelectHigh :=
  ⟨fun _ => step_release, fun _ _ => phase_of_step_wait⟩

/-- Settles O17: the step on the answer leads to `RELEASE`, where the next step is `releaseStep`. -/
theorem answeredExchangeAlwaysReleases : Obligations.AnsweredExchangeAlwaysReleases := by
  unfold Obligations.AnsweredExchangeAlwaysReleases
  intro s a rest hp ha
  obtain ⟨t, ht⟩ := exists_step_wait hp ha
  have hrelease := phase_of_step_wait hp ht
  exact ⟨t, releaseStep t, ht, hrelease, step_release hrelease, rfl, rfl, rfl, rfl, rfl⟩

/-- In the RESPOND step the port carries the response (`10_state.md` R21). -/
theorem Ports.rsp_respond {s : State} (h : s.phase = .respond) : Ports.rsp s = response s :=
  if_pos h

/-- A success carries the code `OK` for every operation (`30_encoding.md` R53). -/
@[simp] theorem okResponse_status (op : BitVec 2) (f : Frame) (vref : Config.VoltT) :
    (okResponse op f vref).status = 0 := by
  rcases op_cases op with rfl | rfl | rfl | rfl
  all_goals rfl

/-- A response carries `STATUS`, on success and on error. -/
@[simp] theorem response_status (s : State) : (response s).status = s.status := by
  unfold response
  split
  next h => rw [okResponse_status, h]
  next => rfl

/-- The response of a successful operation, its code known (`41_read.md` R83). -/
theorem response_of_ok_op {s : State} {op : BitVec 2} (hst : s.status = 0) (hop : s.op = op) :
    response s = okResponse op s.rsp s.vref := by
  rw [Safety.response_of_ok hst, hop]

/-- Settles O49: the response on the port, by `STATUS` and `OP`, is what the RESPOND step emits. -/
theorem respondStepDeliversAndClears : Obligations.RespondStepDeliversAndClears := by
  unfold Obligations.RespondStepDeliversAndClears
  refine ⟨Ports.rspValid_iff, fun s hp => ?_⟩
  rw [Ports.rsp_respond hp]
  exact ⟨response_status s, response_of_ok_op, response_of_ok_op, response_of_ok_op,
    response_of_ok_op, fun h => if_neg h, step_respond hp⟩

end Sys2Proof.Machine

/-! ## The command frames in `START` -/

namespace Sys2Proof.Machine

/-- In `START` an operation encoded by a table constant and a pad byte sends the constant's two
bytes with the pad byte below them (`41_read.md` R79, `42_wire_commands.md` R93). -/
theorem exec_frame_in_start {i : Instr} {bytes : BitVec 16} {pad : Byte} {s : State}
    (hs : s.phase = .start) (he : encode i = .frame (withPad (bytes ++ 0#8) pad)) :
    exec i s =
      .next { s with trace := s.trace ++ [.xferStart (bytes ++ pad)], phase := .wait } := by
  rw [exec_of_encode_frame he, withPad_append]
  exact if_pos hs

/-- Settles O42: each frame's encoding is its table constant with the pad byte. -/
theorem singleEndedFramesAreSent : Obligations.SingleEndedFramesAreSent := by
  unfold Obligations.SingleEndedFramesAreSent
  intro s p hs
  refine ⟨?_, ?_, ?_, ?_, ?_, ?_, ?_, ?_⟩
  all_goals exact exec_frame_in_start hs rfl

/-- Settles O43: each frame's encoding is its table constant with the pad byte. -/
theorem differentialFramesAreSent : Obligations.DifferentialFramesAreSent := by
  unfold Obligations.DifferentialFramesAreSent
  intro s p hs
  refine ⟨?_, ?_, ?_, ?_, ?_, ?_, ?_, ?_⟩
  all_goals exact exec_frame_in_start hs rfl

end Sys2Proof.Machine

/-! ## The acceptance of a read -/

namespace Sys2Proof.Machine

/-- Settles O40: the state check comes first in both chains, the operand check second. -/
theorem checksAreMadeInOrder : Obligations.ChecksAreMadeInOrder := by
  unfold Obligations.ChecksAreMadeInOrder
  refine ⟨fun b m => ?_, fun b model c => ?_, rfl⟩
  · simp only [← legalModel_iff_toNat]
    cases b with
    | true => rfl
    | false =>
      by_cases hm : m = 2 ∨ m = 4 ∨ m = 8
      · rw [configError_none.2 ⟨rfl, hm⟩, if_neg Bool.false_ne_true, if_pos hm]; rfl
      · rw [configError_illegal rfl hm, if_neg Bool.false_ne_true, if_neg hm]; rfl
  · cases b with
    | false => rfl
    | true =>
      by_cases hc : c.toNat < model.toNat
      · rw [readError_none.2 ⟨rfl, hc⟩, if_neg Bool.noConfusion, if_pos hc]; rfl
      · rw [readError_outOfRange rfl (not_lt.1 hc), if_neg Bool.noConfusion, if_neg hc]; rfl

/-- The three bits of the channel that enter the command, as a field and as a truncation
(`41_read.md` R77). -/
theorem channel_setWidth (c : Byte) : c.setWidth 3 = c.extractLsb' 0 3 :=
  BitVec.setWidth_eq_extractLsb' (by decide)

/-- A read that passes its checks, taken from the port of an idle block: the command is built and
chip-select is not touched (`41_read.md` R75, R77). -/
theorem whenAccepted_valid_read {s : State} {p : PortRequest} {rest : List PortRequest} {c : Byte}
    (hi : s.phase = .idle) (hr : s.requests = p :: rest) (hc : s.configured = true)
    (hlt : c.toNat < s.model.toNat) (r : Request) (m : Mode) :
    whenAccepted s (fun _ s => acceptRead r c m s) = .next
      { emit (.accept r) s with
        requests := rest, op := r.op, cmd := cmdFrame m (c.extractLsb' 0 3), status := 0
        phase := .select } := by
  have built := acceptRead_of_no_error (r := r) (m := m) (s := { s with requests := rest })
    (readError_none.2 ⟨hc, hlt⟩)
  rw [channel_setWidth] at built
  exact (whenAccepted_idle _ hi hr).trans (congrArg _ built)

/-- Settles O32: the three reads are one acceptance, `READV` single-ended. -/
theorem validReadBuildsItsCommand : Obligations.ValidReadBuildsItsCommand := by
  unfold Obligations.ValidReadBuildsItsCommand
  intro s p rest c m hi hr hc hlt
  have built := whenAccepted_valid_read hi hr hc hlt
  exact ⟨built (.readRaw c m) m, built (.read c m) m, built (.readV c) .singleEnded⟩

/-- A read writes no setting, and `CMD` only on its way to `SELECT`, whether it is accepted, refused
or not taken (`41_read.md` R75, R76). -/
theorem whenAccepted_read_frame {r : Request} {c : Byte} {m : Mode} {s t : State}
    (h : whenAccepted s (fun _ s => acceptRead r c m s) = .next t) :
    t.settings = s.settings ∧ t.rsp = s.rsp ∧ t.csN = s.csN ∧ t.answers = s.answers ∧
      t.abandoned = s.abandoned ∧ s.trace <+: t.trace ∧ (t.phase ≠ .select → t.cmd = s.cmd) := by
  rcases whenAccepted_cases h with ⟨p, rest, -, -, rfl⟩ | ⟨-, rfl⟩
  · rcases acceptRead_cases r c m { s with requests := rest } with ⟨e, -, hacc⟩ | ⟨-, hacc⟩
    · rw [hacc]
      exact ⟨rfl, rfl, rfl, rfl, rfl, List.prefix_append _ _, fun _ => rfl⟩
    · rw [hacc]
      exact ⟨rfl, rfl, rfl, rfl, rfl, List.prefix_append _ _, absurd rfl⟩
  · exact ⟨rfl, rfl, rfl, rfl, rfl, List.prefix_rfl, fun _ => rfl⟩

/-- Settles O41: the three reads are one acceptance. -/
theorem readFrameUnchanged : Obligations.ReadFrameUnchanged := by
  unfold Obligations.ReadFrameUnchanged
  intro i c m s t hi h
  rcases hi with rfl | rfl | rfl
  · exact whenAccepted_read_frame (r := .readRaw c m) h
  · exact whenAccepted_read_frame (r := .read c m) h
  · exact whenAccepted_read_frame (r := .readV c) h

/-! ## The three reads from acceptance to response -/

/-- A block at rest accepts a valid read, and the five steps of its answered exchange have the
events of the call function and leave the block at rest (`41_read.md` R78 to R83, R91). -/
theorem whenAccepted_read_delivers {s : State} {p : PortRequest} {rest : List PortRequest}
    {c : Byte} {a : Answer} {answers : List Answer} (hs : Safety.AtRest s)
    (hr : s.requests = p :: rest) (hc : s.configured = true) (hlt : c.toNat < s.model.toNat)
    (ha : s.answers = a :: answers) (r : Request) (m : Mode) :
    ∃ t, whenAccepted s (fun _ s => acceptRead r c m s) = .next t ∧ t.phase = .select ∧
      t.op = r.op ∧ t.cmd = cmdFrame m (c.extractLsb' 0 3) ∧
      core.run 5 t = .next
        { s with
          requests := rest, answers := answers
          trace := s.trace ++ busEvents r (cmdFrame m (c.extractLsb' 0 3)) a.heard
            (a.delivered r.op s.vref) } := by
  obtain ⟨hp, hcs, hop, hst, hcmd, hrsp⟩ := hs
  refine ⟨_, whenAccepted_valid_read hp hr hc hlt r m, rfl, rfl, rfl, ?_⟩
  rw [run_exchange (a := a) (rest := answers) (by rfl) (by rfl) (by exact ha)]
  simp [busEvents, hp, hcs, hop, hst, hcmd, hrsp]

/-- Settles O35: the read delivers the data of `op = 01` on the received frame. -/
theorem readrawDeliversFrameAndCode : Obligations.ReadrawDeliversFrameAndCode :=
  fun _ _ _ c m _ _ hs hr hc hlt ha =>
    whenAccepted_read_delivers hs hr hc hlt ha (.readRaw c m) m

/-- Settles O36: the read delivers the data of `op = 10` on the received frame. -/
theorem readDeliversCode : Obligations.ReadDeliversCode :=
  fun _ _ _ c m _ _ hs hr hc hlt ha =>
    whenAccepted_read_delivers hs hr hc hlt ha (.read c m) m

/-- Settles O37: the read delivers the data of `op = 11` on the received frame. -/
theorem readvDeliversVoltage : Obligations.ReadvDeliversVoltage :=
  fun _ _ _ c _ _ hs hr hc hlt ha =>
    whenAccepted_read_delivers hs hr hc hlt ha (.readV c) .singleEnded

/-- Settles O38: the six steps of a read whose exchange is answered with an error. -/
theorem transportErrorReleasesThenAnswers : Obligations.TransportErrorReleasesThenAnswers := by
  unfold Obligations.TransportErrorReleasesThenAnswers
  intro s p rest c m answers hs hr ht hc hlt ha
  rw [← channel_setWidth]
  exact run_read hs hr ht hc hlt ha

/-! ## The call function and the phases -/

/-- A block at rest latches a configuration in two steps, with no bus activity, and is at rest again
(`40_config.md` R70, R73). -/
theorem run_latched {s : State} {p : PortRequest} {rest : List PortRequest} {model : BitVec 4}
    {v : Config.VoltT} (hs : Safety.AtRest s) (hr : s.requests = p :: rest)
    (hacc : accepted p.decoded { s with requests := rest } =
      { emit (.accept p.decoded) { s with requests := rest } with
        op := 0, model := model, vref := v, configured := true, status := 0, phase := .respond }) :
    core.run 2 s = .next
      { s with
        configured := true, model := model, vref := v, requests := rest
        trace := s.trace ++ [.accept p.decoded, .respond ⟨0, 0, 0, .zero⟩] } := by
  obtain ⟨hp, -, hop, hst, hcmd, hrsp⟩ := hs
  have haccept := (step_idle hp hr).trans (congrArg _ hacc)
  have hrun := (run_succ 1 haccept).trans (run_succ 0 (step_respond rfl))
  rw [hrun, respondStep, response_of_ok_op rfl rfl]
  simp [Host.Core.run, okResponse, hp, hop, hst, hcmd, hrsp]

/-- Settles O12, by what the acceptance does: an error and a latched configuration end the call in
two steps, a valid read takes the six of an answered exchange. -/
theorem callFunctionRefinesPhases : Obligations.CallFunctionRefinesPhases := by
  unfold Obligations.CallFunctionRefinesPhases
  intro s p rest res hs hr hcall
  rcases accepted_cases p.decoded { s with requests := rest } with
    ⟨e, he, hacc, hres⟩ | ⟨m, v, -, -, -, hacc, hres⟩ | ⟨c, m, ht, -, hc, hlt, -, hres⟩
  · cases (hres _).symm.trans hcall
    exact run_refused hs hr he hacc
  · cases (hres _).symm.trans hcall
    exact run_latched hs hr hacc
  · have hbus := (hres _).symm.trans hcall
    cases ha : s.answers with
    | nil => rw [ha] at hbus; cases hbus
    | cons a answers =>
      rw [ha, List.head?_cons, callOnBus_some] at hbus
      cases hbus
      exact run_read hs hr ht hc hlt ha

end Sys2Proof.Machine

/-! ## The frame that waits and the counts of chip-select -/

namespace Sys2Proof.Safety

open Sys2Proof.Machine

/-- The phases in which `CMD` waits to be sent, those that `CommandAdmitted` speaks of
(`42_wire_commands.md` R110). -/
def frameWaits : Phase → Bool
  | .select | .start => true
  | .idle | .wait | .release | .respond => false

theorem frameWaits_iff (p : Phase) : frameWaits p = true ↔ p = .select ∨ p = .start := by
  cases p <;> decide

/-- Where no frame waits, `CMD` is not constrained. -/
theorem commandAdmitted_of_not_frameWaits {s : State} (h : frameWaits s.phase = false) :
    CommandAdmitted s :=
  fun hp => absurd ((frameWaits_iff s.phase).2 hp) (Bool.eq_false_iff.1 h)

/-- An acceptance builds a command only after its checks (`41_read.md` R76). -/
theorem commandAdmitted_accepted (r : Request) (s : State) : CommandAdmitted (accepted r s) := by
  rcases accepted_cases r s with ⟨e, he, h, -⟩ | ⟨m, v, -, -, -, h, -⟩ | ⟨c, m, -, -, hc, hlt, h, -⟩
  · rw [h]
    exact commandAdmitted_of_not_frameWaits (by rw [raise_phase, errorPhase_eq_respond he]; rfl)
  · rw [h]
    exact commandAdmitted_of_not_frameWaits rfl
  · rw [h]
    exact fun _ => ⟨hc, cmdFrame_mem_sendable m hlt⟩

/-- Settles O8: acceptance builds an admitted command, SELECT keeps it for START, and after every
other step no frame waits. -/
theorem stepKeepsCommandAdmitted : Obligations.StepKeepsCommandAdmitted := by
  unfold Obligations.StepKeepsCommandAdmitted
  intro s t hs h
  rcases step_cases h with ⟨p, rest, -, -, rfl⟩ | ⟨hp, rfl⟩ | ⟨-, rfl⟩ | ⟨f, rest, -, -, rfl⟩ |
    ⟨rest, -, -, rfl⟩ | ⟨-, rfl⟩ | ⟨-, rfl⟩
  case inl => exact commandAdmitted_accepted p.decoded _
  case inr.inl => exact fun _ => hs (.inl hp)
  all_goals exact commandAdmitted_of_not_frameWaits rfl

theorem countCsHigh_append (t u : List Event) :
    countCsHigh (t ++ u) = countCsHigh t + countCsHigh u := by
  simp only [countCsHigh, List.filter_append, List.length_append]

/-- The `CsHigh` events due by the level of the line (`41_read.md` R90 (c)): 1 while it is low. -/
def risesDue (csN : Bool) : Nat := if csN then 0 else 1

/-- The counts stay in balance when the event and the level of the line agree: a `CsLow` lowers it,
a `CsHigh` raises it. -/
theorem CsBalanced.of_event {s t : State} {e : Event} (hs : CsBalanced s)
    (htrace : t.trace = s.trace ++ [e])
    (hdue : countCsLow [e] + risesDue s.csN = countCsHigh [e] + risesDue t.csN) :
    CsBalanced t := by
  have hs' : countCsLow s.trace = countCsHigh s.trace + risesDue s.csN := hs
  have ht : countCsLow t.trace = countCsHigh t.trace + risesDue t.csN := by
    rw [htrace, countCsLow_append, countCsHigh_append]
    omega
  exact ht

/-- Settles O9: SELECT lowers a line that is high, RELEASE raises a line that is low, and no other
step moves the line or appends a counted event. -/
theorem stepKeepsChipSelectBalanced : Obligations.StepKeepsChipSelectBalanced := by
  unfold Obligations.StepKeepsChipSelectBalanced
  intro s t hcs hs h
  rcases step_cases h with ⟨p, rest, -, -, rfl⟩ | ⟨hp, rfl⟩ | ⟨-, rfl⟩ | ⟨f, rest, -, -, rfl⟩ |
    ⟨rest, -, -, rfl⟩ | ⟨hp, rfl⟩ | ⟨-, rfl⟩
  case inl => exact hs.of_event (accepted_trace _ _) (by rw [accepted_csN]; rfl)
  case inr.inl => exact hs.of_event rfl (by rw [hcs, hp]; rfl)
  case inr.inr.inr.inr.inr.inl => exact hs.of_event rfl (by rw [hcs, hp]; rfl)
  all_goals exact hs.of_event rfl rfl

end Sys2Proof.Safety

/-! ## An exchange that is never answered -/

namespace Sys2Proof.Machine

/-- SELECT and START bring a read into `WAIT` with chip-select low and its command handed over
(`41_read.md` R78, R79). -/
theorem run_select_start {s : State} (hp : s.phase = .select) :
    core.run 2 s = .next
      { s with
        csN := false, phase := .wait, trace := s.trace ++ [.csLow, .xferStart s.cmd] } := by
  rw [List.append_cons]
  exact (run_succ 1 (step_select hp)).trans (run_succ 0 (step_start rfl))

/-- Settles O13: the acceptance, SELECT and START lead to `WAIT`, where no step is enabled without an
answer (`70_reset_and_hazards.md` R137). -/
theorem unansweredReadStaysInWait : Obligations.UnansweredReadStaysInWait := by
  unfold Obligations.UnansweredReadStaysInWait
  intro s p rest c m hs hr ht hc hlt ha
  obtain ⟨hidle, -, -⟩ := hs
  have hrun := (run_succ 2 (step_valid_read hidle hr ht hc hlt)).trans (run_select_start rfl)
  refine ⟨_, hrun, rfl, rfl, ?_, step_wait_nil rfl ha⟩
  exact List.append_assoc _ _ _

/-! ## A reset inside a run -/

/-- With an exchange under way, reset drops the answer settled for it, or counts the one still to
come (`70_reset_and_hazards.md` R132). -/
theorem applyReset_of_underWay {s : State} (h : s.phase = .start ∨ s.phase = .wait) :
    s.applyReset.answers = s.answers.tail ∧
      s.applyReset.abandoned = if s.answers = [] then s.abandoned + 1 else s.abandoned := by
  simp [State.applyReset, (underWay_iff s).2 h]

/-- With no exchange under way, reset keeps every answer for the exchanges to come. -/
theorem applyReset_of_not_underWay {s : State} (hstart : s.phase ≠ .start)
    (hwait : s.phase ≠ .wait) :
    s.applyReset.answers = s.answers ∧ s.applyReset.abandoned = s.abandoned := by
  have hnot : s.underWay = false := by simp [State.underWay, hstart, hwait]
  simp [State.applyReset, hnot]

/-- Settles O3: the registers are those of `State.reset`; the answers go by whether an exchange is
under way. -/
theorem resetFromAnyState : Obligations.ResetFromAnyState :=
  fun s => ⟨rfl, rfl, applyReset_phase s, ⟨rfl, rfl, rfl, rfl⟩, applyReset_csN s,
    applyReset_trace s, applyReset_requests s, applyReset_of_underWay, applyReset_of_not_underWay⟩

/-! ## A late answer -/

/-- An answer that comes while no exchange is cut short is queued. -/
theorem answerExchange_of_not_abandoned {s : State} (a : Answer) (h : s.abandoned = 0) :
    s.answerExchange a = { s with answers := s.answers ++ [a] } := by
  rcases answerExchange_cases a s with ⟨-, hq⟩ | ⟨n, hn, -⟩
  · exact hq
  · omega

/-- An answer to an exchange cut short takes it off the count and is ignored. -/
theorem answerExchange_of_abandoned {s : State} {n : Nat} (a : Answer) (h : s.abandoned = n + 1) :
    s.answerExchange a = { s with abandoned := n } := by
  rcases answerExchange_cases a s with ⟨hz, -⟩ | ⟨k, hk, hq⟩
  · omega
  · obtain rfl : k = n := by omega
    exact hq

/-- An exchange cut short that is never answered comes off the count. -/
theorem dropExchange_of_abandoned {s : State} {n : Nat} (h : s.abandoned = n + 1) :
    s.dropExchange = { s with abandoned := n } := by
  simp only [State.dropExchange, h, Nat.add_sub_cancel]

@[simp] theorem accepted_abandoned (r : Request) (s : State) :
    (accepted r s).abandoned = s.abandoned := by
  obtain ⟨-, -, -, -, -, h⟩ := accepted_frame r s
  exact h

/-- No step touches the count of exchanges cut short. -/
theorem step_abandoned {s t : State} (h : step s = .next t) : t.abandoned = s.abandoned := by
  rcases step_cases h with ⟨p, rest, -, -, rfl⟩ | ⟨-, rfl⟩ | ⟨-, rfl⟩ | ⟨f, rest, -, -, rfl⟩ |
    ⟨rest, -, -, rfl⟩ | ⟨-, rfl⟩ | ⟨-, rfl⟩
  case inl => exact accepted_abandoned p.decoded _
  all_goals rfl

/-- Settles O58: the reset counts the exchange it cuts short, and both the late answer and its
dropping take that one off the count again. -/
theorem lateAnswerIsIgnored : Obligations.LateAnswerIsIgnored := by
  unfold Obligations.LateAnswerIsIgnored
  refine ⟨fun s late hway ha => ?_, fun s a h => answerExchange_of_not_abandoned a h,
    fun _ _ => step_abandoned⟩
  have hcut : s.applyReset.abandoned = s.abandoned + 1 :=
    (applyReset_of_underWay hway).2.trans (if_pos ha)
  have hlate := answerExchange_of_abandoned late hcut
  have hdrop := dropExchange_of_abandoned hcut
  exact ⟨hlate, hdrop, congrArg step (hlate.trans hdrop.symm)⟩

end Sys2Proof.Machine
